-- ==== Sys2Proof/Word.lean ====
section
/-! DEFINITION. The word types of the block (00_scope R12, R17; 10_state R30; 30_encoding R90, R93, R96).
All values are unsigned: the block has no signed quantity. -/

namespace Sys2Proof

/-- One line level or one-bit flag. `true` is 1, the idle, marking, high level; `false` is 0, the
level of a start bit (00_scope R17). -/
abbrev Level := Bool

/-- An 8-bit data register or operand (10_state R30). -/
abbrev Byte := BitVec 8

/-- The 4-bit counters `rx_cnt` and `tx_cnt` (10_state R34, R35). -/
abbrev Count := BitVec 4

/-- The 11-bit host command word: `op` in bits 10:8, `data` in bits 7:0 (30_encoding R93). -/
abbrev CmdWord := BitVec 11

/-- The 9-bit response word: `flag` in bit 8, `byte` in bits 7:0 (30_encoding R96). -/
abbrev RspWord := BitVec 9

/-- The 10-bit frame word: slot `i` in time carries bit `i` (30_encoding R90). -/
abbrev FrameWord := BitVec 10

end Sys2Proof
end

