-- ==== Sys2Proof/Config.lean ====
section
/-! DEFINITION. What an implementation fixes before the first tick (00_scope R6, R9, R11;
10_state R46) and the free values the spec leaves open (10_state R56). -/

namespace Sys2Proof

/-- The two open parameters of the block. They are fixed before the first tick and no step changes
them (10_state R46, R51). `START_DELAY` and `FRAME_TICKS` are derived: `Machine.startDelay`,
`Machine.frameTicks`. -/
structure Config where
  /-- `BIT_PERIOD`, ticks in one bit period (00_scope R6). -/
  bitPeriod : Nat
  /-- `RX_PREEMPTS`: a reception freezes the transmitter and the host port (00_scope R9). -/
  rxPreempts : Bool
  deriving DecidableEq, Repr

/-- The default parameters: 104 ticks a bit, the receiver preempts (00_scope R6, R9, R11). -/
def Config.default : Config := { bitPeriod := 104, rxPreempts := true }

/-- The unspecified 8-bit values that a reset leaves in `rx_acc`, `rx_byte` and `tx_sr`
(10_state R56; 93_implementation_defined U1, U2). No body: a claim is true whatever they are.
Log entry 4. -/
opaque Config.freeByte : Nat → Byte

/-- The unspecified 1-bit values that a reset leaves in `rx_c` (10_state R56). Log entry 4. -/
opaque Config.freeBit : Nat → Level

end Sys2Proof
end

