-- ==== Sys2Proof/Syntax.lean ====
section
/-! DEFINITION. The operations that have an encoding: one constructor per row of
spec/opcode_table.json (30_encoding R94, R98, R101). -/

namespace Sys2Proof

/-- The nine encoded operations. A host command other than `TX_SEND` carries the `data` field of
its word, which it ignores whatever its value (30_encoding R93), so that no bit of a word is lost
in decoding. -/
inductive Instr where
  /-- `NOP`, op 0 (40_host_port R114). -/
  | nop (ignored : Byte)
  /-- `TX_SEND data`, op 1 (42_transmitter R151). -/
  | txSend (data : Byte)
  /-- `RX_STATUS`, op 2 (41_receiver R137). -/
  | rxStatus (ignored : Byte)
  /-- `RX_READ`, op 3 (41_receiver R138). -/
  | rxRead (ignored : Byte)
  /-- `RX_CLEAR`, op 4 (41_receiver R139). -/
  | rxClear (ignored : Byte)
  /-- `RX_TAKE`, op 5 (41_receiver R140). -/
  | rxTake (ignored : Byte)
  /-- Reserved opcode 6, executes as `NOP` (30_encoding R98). -/
  | rsv6 (ignored : Byte)
  /-- Reserved opcode 7, executes as `NOP` (30_encoding R98). -/
  | rsv7 (ignored : Byte)
  /-- `FRAME b`: the serial frame of the byte `b` on the receive line (30_encoding R90, R105). -/
  | frame (data : Byte)
  deriving DecidableEq, Repr

/-- The two encoding spaces: the 11-bit words of the command port (30_encoding R93) and the 10-bit
frame words of the serial line (R90). The same number can be a word of both (log entry 6). -/
def Instr.isCommand : Instr → Bool
  | .nop _ => true
  | .txSend _ => true
  | .rxStatus _ => true
  | .rxRead _ => true
  | .rxClear _ => true
  | .rxTake _ => true
  | .rsv6 _ => true
  | .rsv7 _ => true
  | .frame _ => false

/-- A reserved command: a host must not issue one (30_encoding R98). -/
def Instr.isReserved : Instr → Bool
  | .rsv6 _ => true
  | .rsv7 _ => true
  | .nop _ => false
  | .txSend _ => false
  | .rxStatus _ => false
  | .rxRead _ => false
  | .rxClear _ => false
  | .rxTake _ => false
  | .frame _ => false

end Sys2Proof
end

