-- ==== Sys2Proof/HostProgram.lean ====
section
/-! DEFINITION. The host-program and stimulus syntax of 30_encoding R102 to R105, and what a host
does tick by tick. The functions that expand and run them are in Machine/HostAgent.lean,
Machine/Formatter.lean and Machine/Line.lean. -/

namespace Sys2Proof

/-- The open parameter `FMT_NEG128` of the Formatter collaborator: the magnitude `%d` prints for
the value 128 (43_formatter_collaborators R167; 93_implementation_defined U4). No default. -/
inductive FmtNeg128 where
  /-- 8-bit negation of 128 is 128: `-128`. -/
  | wrap
  /-- The magnitude is 127: `-127`. -/
  | saturate
  deriving DecidableEq, Repr

/-- What a host does, one entry at a time. `offer` and `quiet` give the general host, which may
present or withhold any command in any tick (00_scope R19); `issue`, `poll` and `sendVar` give the
host of 30_encoding R104, which presents a command until it is accepted. -/
inductive HostOp where
  /-- Present nothing for one tick. -/
  | quiet
  /-- Present `w` in this one tick, whether or not it is accepted. -/
  | offer (w : CmdWord)
  /-- Present `w` until accepted (R104); then bind its response to a name if one is given (R102). -/
  | issue (w : CmdWord) (bind : Option Nat)
  /-- Present `RX_STATUS` until a response has flag 1 (R103, `POLL`). -/
  | poll
  /-- Present `TX_SEND` of the byte of the response bound to a name, until accepted. -/
  | sendVar (name : Nat)
  deriving DecidableEq, Repr

/-- A statement of a host program (30_encoding R102, R103). Names are numbers. Strings and templates
are lists of character codes; a template ends at its first 0 or at the end of the list. -/
inductive Stmt where
  /-- A command, with an optional `-> name`. -/
  | command (i : Instr) (bind : Option Nat)
  /-- `TX_SEND v` with `v` bound by an earlier statement. Log entry 8. -/
  | sendVar (name : Nat)
  /-- `IDLE n`. -/
  | idle (n : Nat)
  /-- `WAIT n`. -/
  | wait (n : Nat)
  /-- `POLL`. -/
  | poll
  /-- `GETC -> v`, or `GETC` without a name. -/
  | getc (bind : Option Nat)
  /-- `PUTC c`. -/
  | putc (c : Byte)
  /-- `PUTS "s"`. -/
  | puts (s : List Byte)
  /-- `PRINTF "template", v`, with `v` a literal byte. That it is no bound name is the model's choice:
  30_encoding R103 does not say which `v` is meant. Log entry 19. -/
  | printf (template : List Byte) (v : Byte)
  deriving DecidableEq, Repr

/-- A statement of a receive-line stimulus (30_encoding R105). -/
inductive LineStmt where
  /-- `FRAME b AT t [PERIOD P]`; without `PERIOD`, `BIT_PERIOD`. -/
  | frame (b : Byte) (at_ : Nat) (period : Option Nat)
  /-- `LOW t1..t2`, both ends included. -/
  | low (t1 t2 : Nat)
  deriving DecidableEq, Repr

end Sys2Proof
end

