-- ==== Sys2Proof/WellFormed.lean ====
section
/-! DEFINITION. The checks on terms: which configurations the spec allows (00_scope R6), which
instructions are well formed (30_encoding R99), and which host programs (30_encoding R98, R102;
43_formatter_collaborators R174). -/

namespace Sys2Proof

/-- The allowed values of `BIT_PERIOD`: even and at least 2 (00_scope R6). Every value of
`RX_PREEMPTS` is allowed (R9). Log entry 15. -/
abbrev Config.WF (c : Config) : Prop := c.bitPeriod % 2 = 0 ∧ 2 ≤ c.bitPeriod

/-- Every term of `Instr` is well formed: an operand's width is in its type, and there is no
illegal command word (30_encoding R99) and no frame of an illegal byte (R95). Which raw words are
words of a port at all is the decoder's check. -/
def Instr.wf : Instr → Bool
  | .nop _ => true
  | .txSend _ => true
  | .rxStatus _ => true
  | .rxRead _ => true
  | .rxClear _ => true
  | .rxTake _ => true
  | .rsv6 _ => true
  | .rsv7 _ => true
  | .frame _ => true

/-- A template is well formed when its scan, which stops at the first null, does not meet the
terminator right after a `%` (43_formatter_collaborators R174). -/
def templateWf : List Byte → Bool
  | [] => true
  | [c] => c != 0x25#8
  | c :: d :: rest =>
    if c = 0#8 then true
    else if c = 0x25#8 then d != 0#8 && templateWf rest
    else templateWf (d :: rest)

/-- The names a statement binds, added to those bound before it (30_encoding R102). -/
def Stmt.binds : Stmt → List Nat → List Nat
  | .command _ b, known => b.toList ++ known
  | .getc b, known => b.toList ++ known
  | .sendVar _, known => known
  | .idle _, known => known
  | .wait _, known => known
  | .poll, known => known
  | .putc _, known => known
  | .puts _, known => known
  | .printf _ _, known => known

/-- A statement is well formed when its command is a command of the port and not a reserved one
(30_encoding R98: a host must not issue them), a name it uses is bound, and its template does not
end in a lone `%`. -/
def Stmt.wf (known : List Nat) : Stmt → Bool
  | .command i _ => i.wf && i.isCommand && !i.isReserved
  | .sendVar v => known.contains v
  | .printf t _ => templateWf t
  | .idle _ => true
  | .wait _ => true
  | .poll => true
  | .getc _ => true
  | .putc _ => true
  | .puts _ => true

/-- A host program is well formed when each statement is, given the names bound before it. -/
def programWf (known : List Nat) : List Stmt → Bool
  | [] => true
  | st :: rest => st.wf known && programWf (st.binds known) rest

end Sys2Proof
end

