-- ==== Sys2Proof/Decode.lean ====
section
/-! DEFINITION. The two decoders (30_encoding R92 to R95, R98, R99), total and rejecting by name,
and the encoders written from the same tables (R90, R93, R94). -/

namespace Sys2Proof

/-- Why a raw number is no word of a port. -/
inductive DecodeError where
  /-- It has a bit above the port's width: 11 bits for a command, 10 for a frame (R90, R93). -/
  | noSuchWord
  /-- Slot 0 of a frame carries 0 (R90). -/
  | startNotLow
  /-- Slot 9 of a frame carries 1 (R90). -/
  | stopNotHigh
  deriving DecidableEq, Repr

/-- The opcode field, bits 10:8 (R93). -/
def opField (w : CmdWord) : BitVec 3 := w.extractLsb' 8 3

/-- The operand field, bits 7:0, taken as it stands (R93, R95). -/
def dataField (w : CmdWord) : Byte := w.extractLsb' 0 8

/-- The opcode map, by the three bits of `op`, most significant first (R94). Every word decodes
(R99). -/
def decodeCommand (w : CmdWord) : Instr :=
  match (opField w).getLsbD 2, (opField w).getLsbD 1, (opField w).getLsbD 0 with
  | false, false, false => .nop (dataField w)
  | false, false, true => .txSend (dataField w)
  | false, true, false => .rxStatus (dataField w)
  | false, true, true => .rxRead (dataField w)
  | true, false, false => .rxClear (dataField w)
  | true, false, true => .rxTake (dataField w)
  | true, true, false => .rsv6 (dataField w)
  | true, true, true => .rsv7 (dataField w)

/-- The frame decoder: start 0 in bit 0, data in bits 8:1, stop 1 in bit 9 (R90). The receiver
checks neither (20_memory R76); this decoder says which line words are frames. -/
def decodeFrame (w : FrameWord) : Except DecodeError Instr :=
  if w.getLsbD 0 then .error .startNotLow
  else if !w.getLsbD 9 then .error .stopNotHigh
  else .ok (.frame (w.extractLsb' 1 8))

/-- Whether a word of `nbits` bits is a word of the serial line (10 bits) or of the command port
(11 bits, or the 16 of whole bytes). Log entry 6. -/
def isLineWidth (nbits : Nat) : Bool := nbits ≤ 10

/-- Both decoders on raw numbers: a number with a bit above the port's width is no word. -/
def decodeRaw (nbits w : Nat) : Except DecodeError Instr :=
  if isLineWidth nbits then
    if w < 2 ^ 10 then decodeFrame (BitVec.ofNat 10 w) else .error .noSuchWord
  else if w < 2 ^ 11 then .ok (decodeCommand (BitVec.ofNat 11 w))
  else .error .noSuchWord

/-- The instruction read from a row's word, or none where the decoder refuses. The block stores no
instruction and has no fetch endianness (20_memory R72): the word stands on the port whole. -/
def decodeTableWord (nbits w : Nat) : Option Instr :=
  match decodeRaw nbits w with
  | .ok i => some i
  | .error _ => none

/-- The command word with opcode `op` and operand `data` (R93). -/
def commandWord (op : BitVec 3) (data : Byte) : CmdWord := op ++ data

/-- The frame word of a byte: stop, data, start from the most significant end, the word
F = (1, b[7:0], 0) (R90). -/
def frameWord (b : Byte) : FrameWord := 1#1 ++ b ++ 0#1

/-- The width in bits of an instruction's word (R90, R93). -/
def Instr.nbits (i : Instr) : Nat := if i.isCommand then 11 else 10

/-- The encoder: the word of an instruction as a number (R90, R94). -/
def encode : Instr → Nat
  | .nop d => (commandWord 0b000#3 d).toNat
  | .txSend d => (commandWord 0b001#3 d).toNat
  | .rxStatus d => (commandWord 0b010#3 d).toNat
  | .rxRead d => (commandWord 0b011#3 d).toNat
  | .rxClear d => (commandWord 0b100#3 d).toNat
  | .rxTake d => (commandWord 0b101#3 d).toNat
  | .rsv6 d => (commandWord 0b110#3 d).toNat
  | .rsv7 d => (commandWord 0b111#3 d).toNat
  | .frame b => (frameWord b).toNat

/-- The level word `F` spread over time: slot `i` of `period` ticks carries `F[i]`, slot 0 first,
ten slots (R90). -/
def slotLevels (period : Nat) (F : FrameWord) : List Level :=
  (List.range 10).flatMap fun i => List.replicate period (F.getLsbD i)

end Sys2Proof
end

