-- ==== Sys2Proof/Machine/State.lean ====
section
/-! DEFINITION. The state of the block: the fifteen fields of 10_state R51, grouped by their owner
(60_exceptions R213), with the parameters, the input schedules and the model's own record of the
last response beside them. Plain data. The block has no addressable memory (10_state R48). -/

namespace Sys2Proof.Machine

/-- The interrupt context's fields (60_exceptions R213). -/
structure Receiver where
  /-- `rx_prev`: the line level of the previous tick (R43). -/
  prev : Level
  /-- `edge_pending`: the pending-interrupt latch (R42). -/
  edgePending : Bool
  /-- `rx_active`: a reception is in progress; also `out.rx_busy` (R34, R45). -/
  active : Bool
  /-- `rx_timer`: ticks until the next sample (R34, R38). Log entry 11. -/
  timer : Nat
  /-- `rx_cnt`: samples still to take, the current one included (R34). -/
  cnt : Count
  /-- `rx_acc`: the byte accumulator (R32). -/
  acc : Byte
  /-- `rx_c`: the receiver's carry (R40). -/
  c : Level
  deriving DecidableEq, Repr

/-- The mailbox, the only storage both contexts share (10_state R48). -/
structure Mailbox where
  /-- `rx_byte` (R31). -/
  byte : Byte
  /-- `rx_ready` (R39). -/
  ready : Bool
  deriving DecidableEq, Repr

/-- The transmitter's fields, owned by the main context (60_exceptions R213). -/
structure Transmitter where
  /-- `tx_active`: a frame is being sent; also `out.tx_busy` (R35, R45). -/
  active : Bool
  /-- `tx_timer`: un-stalled ticks until the next step (R35, R38). Log entry 11. -/
  timer : Nat
  /-- `tx_cnt`: prime-and-rotate steps still to do (R35). -/
  cnt : Count
  /-- `tx_sr`: the shift register (R33). -/
  sr : Byte
  /-- `tx_c`: the transmitter's carry (R41). -/
  c : Level
  /-- `tx_line`: the output latch (R44). -/
  line : Level
  deriving DecidableEq, Repr

/-- The host: what it has still to do, and the responses it has bound to names, newest first
(30_encoding R102, R104). -/
structure HostAgent where
  ops : List HostOp
  vars : List (Nat × RspWord)
  deriving DecidableEq, Repr

/-- The whole machine. -/
structure State where
  /-- The parameters; no step changes them. Log entry 2. -/
  cfg : Config
  /-- Edge detector and receiver sequencer. -/
  rx : Receiver
  /-- The single-slot mailbox. -/
  box : Mailbox
  /-- The transmitter. -/
  tx : Transmitter
  /-- `in.rst` of this tick, the next, and so on; 0 after the end. Log entry 1. -/
  rstIn : List Bool
  /-- `in.rx_line` of this tick, the next, and so on; 1 after the end (30_encoding R105). Log entry 1. -/
  rxIn : List Level
  /-- The host, which drives `in.cmd_valid` and `in.cmd_word`. Log entries 1 and 8. -/
  host : HostAgent
  /-- The model's own record: `out.rsp_word` of the last tick. Log entry 7. -/
  rsp : RspWord
  /-- The model's own record: a command was accepted in the last tick. Log entry 7. -/
  accepted : Bool
  /-- The model's own counter of free values used. Log entry 4. -/
  freeCtr : Nat
  deriving DecidableEq, Repr

/-- The block has no fault: "The block raises no exception, fault, trap or error, ever"
(60_exceptions R200; 45_tick_step R192). The type is empty, so nothing raises one; that is the
spec's own statement and no difference from the hardware. -/
inductive Fault : Type where
  deriving DecidableEq, Repr

/-- Why the model, not the block, would stop. -/
inductive Refusal where
  /-- Raised by a dispatch arm whose instruction has no meaning yet. Safe: the model stops where the
  block goes on. No arm raises it. -/
  | notModelled (mnemonic : String)
  deriving DecidableEq, Repr

/-- The receiver right after reset (10_state R51, R58). `acc` and `c` are unspecified there; 0 is
this model's choice. Log entry 3, DESIGN CHOICE. -/
def Receiver.reset : Receiver :=
  { prev := true, edgePending := false, active := false, timer := 0, cnt := 0#4, acc := 0#8, c := false }

/-- The mailbox right after reset: flag 0, byte unspecified (10_state R55). 0 is this model's
choice. Log entry 3, DESIGN CHOICE. -/
def Mailbox.reset : Mailbox := { byte := 0#8, ready := false }

/-- The transmitter right after reset (10_state R51, R58). `sr` is unspecified there; 0 is this
model's choice. Log entry 3, DESIGN CHOICE. -/
def Transmitter.reset : Transmitter :=
  { active := false, timer := 0, cnt := 0#4, sr := 0#8, c := true, line := true }

/-- The machine right after reset (10_state R58), at the default parameters (00_scope R6, R9), with
nothing scheduled on any input. -/
def State.reset : State :=
  { cfg := Config.default, rx := Receiver.reset, box := Mailbox.reset, tx := Transmitter.reset,
    rstIn := [], rxIn := [], host := { ops := [], vars := [] },
    rsp := 0#9, accepted := false, freeCtr := 0 }

end Sys2Proof.Machine
end

