-- ==== Sys2Proof/Machine/Flags.lean ====
section
/-! DEFINITION. The rotate through carry and the conditions computed from flags: `fall`, `pend`,
`stall`, `cmd_ready` (00_scope R16; 41_receiver R125, R126; 60_exceptions R207; 10_state R52). -/

namespace Sys2Proof.Machine

/-- Rotate right through carry: the old carry enters bit 7, every bit moves down one place, bit 0
leaves into the carry. The pair is (carry out, value out) (00_scope R16). -/
def rrc (c : Level) (v : Byte) : Level × Byte :=
  (v.getLsbD 0, BitVec.cons c (v.extractLsb' 1 7))

/-- `fall`: the line is seen at 0 in a tick after one in which it was seen at 1 (41_receiver R125). -/
def fall (rx : Receiver) (line : Level) : Bool := rx.prev && !line

/-- `pend`, the pending value of a tick (41_receiver R126). -/
def pend (rx : Receiver) (line : Level) : Bool := rx.edgePending || fall rx line

/-- `stall`: the transmitter and the host port do not move (60_exceptions R207). -/
def State.stall (s : State) : Bool := s.cfg.rxPreempts && s.rx.active

/-- `out.cmd_ready` (10_state R52; 40_host_port R111). -/
def State.cmdReady (s : State) : Bool := !s.tx.active && !s.stall

end Sys2Proof.Machine
end

