-- ==== Sys2Proof/Machine/Operands.lean ====
section
/-! DEFINITION. The operands of a tick: the input ports (10_state R50), the responses
(30_encoding R96; 40_host_port R113), and what a command asks of the block when it is accepted
(40_host_port R115). -/

namespace Sys2Proof.Machine

/-- `in.rst` of this tick; 0 after the end of the schedule. -/
def State.rstNow (s : State) : Bool := s.rstIn.headD false

/-- `LineRead()`, the value of `in.rx_line` at this tick (00_scope R15); 1 after the end of the
schedule (30_encoding R105). -/
def State.lineNow (s : State) : Level := s.rxIn.headD true

/-- The response word of a flag and a byte (30_encoding R96). -/
def rspWord (flag : Bool) (byte : Byte) : RspWord := BitVec.cons flag byte

/-- `flag = rsp_word[8]` (30_encoding R96). -/
def rspFlag (r : RspWord) : Bool := r.getLsbD 8

/-- `byte = rsp_word[7:0]` (30_encoding R96). -/
def rspByte (r : RspWord) : Byte := r.extractLsb' 0 8

/-- What a command asks for, from the pre-state of its tick. It takes effect only if the command is
accepted (40_host_port R111, R112). -/
structure Request where
  /-- The response if accepted (40_host_port R113). -/
  response : RspWord
  /-- The byte to send, for `TX_SEND`. -/
  send : Option Byte
  /-- Whether it clears `rx_ready`, for `RX_CLEAR` and `RX_TAKE`. -/
  clear : Bool
  deriving DecidableEq, Repr

/-- Nothing is read, nothing is written, the response is 0 (40_host_port R114). -/
def quietRequest : Request := { response := 0#9, send := none, clear := false }

end Sys2Proof.Machine
end

