-- ==== Sys2Proof/Machine/Ops.lean ====
section
/-! DEFINITION. The named operations of the tick step: the receiver's (41_receiver R125 to R134), the
mailbox's (R134, R139, R141), the transmitter's (42_transmitter R151 to R155, R160), reset
(70_reset_and_hazards R230), and their composition (45_tick_step R190). The interrupt's entry and
return, all the block has in place of exceptions (60_exceptions R208, R209), are `rxStart` and
`rxPublish`. -/

namespace Sys2Proof.Machine

/-- `START_DELAY`, one and a half bit periods (00_scope R7). -/
def startDelay (c : Config) : Nat := 3 * c.bitPeriod / 2

/-- `FRAME_TICKS`, ten bit periods (00_scope R8). -/
def frameTicks (c : Config) : Nat := 10 * c.bitPeriod

/-! ### Receiver -/

/-- `RX_START`, the entry into the interrupt context: the position is loaded, the latch is set, and
nothing is saved or copied (41_receiver R128; 60_exceptions R208). -/
def rxStart (c : Config) (rx : Receiver) : Receiver :=
  { rx with active := true, timer := startDelay c, cnt := 8#4, edgePending := true }

/-- `RX_COUNT` (41_receiver R129). -/
def rxCount (p : Bool) (rx : Receiver) : Receiver :=
  { rx with timer := rx.timer - 1, edgePending := p }

/-- The rotation of `RX_SAMPLE`: the sample is the carry in (41_receiver R131). -/
def rxShift (line : Level) (rx : Receiver) : Receiver :=
  { rx with acc := (rrc line rx.acc).2, c := (rrc line rx.acc).1 }

/-- The rest of an `RX_SAMPLE` with more samples to come (41_receiver R131). -/
def rxContinue (c : Config) (p : Bool) (rx : Receiver) : Receiver :=
  { rx with cnt := rx.cnt - 1#4, timer := c.bitPeriod, edgePending := p }

/-- The receiver's side of `RX_PUBLISH`, the return from the interrupt context: the position goes to
idle and the detector is re-armed; nothing is restored because nothing was saved (41_receiver R134;
60_exceptions R209). -/
def rxPublish (rx : Receiver) : Receiver :=
  { rx with active := false, cnt := 0#4, timer := 0, edgePending := false }

/-- One tick of edge detector and receiver sequencer, and the byte it publishes if any: exactly one
of idle, `RX_START`, `RX_COUNT`, `RX_SAMPLE`, with `RX_PUBLISH` if it is the last sample
(45_tick_step R190, R196). It runs in every tick and reads nothing but its own fields, the line and
`BIT_PERIOD` (R193). -/
def receiverTick (c : Config) (line : Level) (rx : Receiver) : Receiver × Option Byte :=
  let p := pend rx line
  let seen : Receiver := { rx with prev := line }
  if rx.active = false then
    if p then (rxStart c seen, none) else (seen, none)
  else if 1 < rx.timer then (rxCount p seen, none)
  else if 1#4 < rx.cnt then (rxContinue c p (rxShift line seen), none)
  else (rxPublish (rxShift line seen), some (rrc line rx.acc).2)

/-! ### Mailbox -/

/-- Publication and clear in one tick: a publication writes byte and flag together, whatever the flag
was, and wins over a clear (41_receiver R134, R135, R139, R141). -/
def mailboxTick (published : Option Byte) (clear : Bool) (box : Mailbox) : Mailbox :=
  match published with
  | some b => { byte := b, ready := true }
  | none => if clear then { box with ready := false } else box

/-! ### Transmitter -/

/-- `TX_SEND`: the start bit goes on the line and nine steps are due (42_transmitter R151). -/
def txStart (c : Config) (data : Byte) : Transmitter :=
  { active := true, timer := c.bitPeriod, cnt := 9#4, sr := data, c := false, line := false }

/-- `TX_COUNT` (42_transmitter R152). -/
def txCount (tx : Transmitter) : Transmitter := { tx with timer := tx.timer - 1 }

/-- `TX_STEP`, prime and rotate: the carry is forced to 1 first, and the bit rotated out goes to the
carry and to the line (42_transmitter R153). -/
def txStep (c : Config) (tx : Transmitter) : Transmitter :=
  { tx with sr := (rrc true tx.sr).2, c := (rrc true tx.sr).1, line := (rrc true tx.sr).1,
            cnt := tx.cnt - 1#4, timer := c.bitPeriod }

/-- `TX_END` (42_transmitter R155). -/
def txEnd (tx : Transmitter) : Transmitter := { tx with active := false, timer := 0 }

/-- One un-stalled tick of the transmitter: exactly one of idle, `TX_SEND`, `TX_COUNT`, `TX_STEP`,
`TX_END` (45_tick_step R190, R197). -/
def transmitterTick (c : Config) (send : Option Byte) (tx : Transmitter) : Transmitter :=
  if tx.active = false then
    match send with
    | some d => txStart c d
    | none => tx
  else if 1 < tx.timer then txCount tx
  else if 0#4 < tx.cnt then txStep c tx
  else txEnd tx

/-! ### The whole tick -/

/-- A tick with `in.rst = 1`: the reset state, whatever the pre-state and the other inputs; no command
is accepted and the response is 0 (70_reset_and_hazards R230). The four unspecified fields take free
values (10_state R56, log entry 4). The inputs of the tick are used up; the parameters and the host
are no part of the block's state (10_state R51, log entry 16). -/
def State.resetTick (s : State) : State :=
  { s with
    rx := { Receiver.reset with acc := Config.freeByte s.freeCtr, c := Config.freeBit s.freeCtr }
    box := { Mailbox.reset with byte := Config.freeByte (s.freeCtr + 1) }
    tx := { Transmitter.reset with sr := Config.freeByte (s.freeCtr + 2) }
    rstIn := s.rstIn.tail
    rxIn := s.rxIn.tail
    rsp := 0#9
    accepted := false
    freeCtr := s.freeCtr + 3 }

/-- A tick without reset, given the request of the command accepted in it, if any (45_tick_step R190,
steps 2 to 9). All right-hand sides are of the pre-state (00_scope R13). -/
def State.runTick (granted : Option Request) (s : State) : State :=
  let r := granted.getD quietRequest
  let seen := receiverTick s.cfg s.lineNow s.rx
  { s with
    rx := seen.1
    box := mailboxTick seen.2 r.clear s.box
    tx := if s.stall then s.tx else transmitterTick s.cfg r.send s.tx
    rstIn := s.rstIn.tail
    rxIn := s.rxIn.tail
    rsp := r.response
    accepted := granted.isSome }

/-- One tick of the block in which the host presents a command that makes `request`, or presents
nothing (45_tick_step R190): reset over all; a command presented while the port is closed has no
effect and leaves no memory (40_host_port R112). -/
def State.tick (request : Option Request) (s : State) : State :=
  if s.rstNow then s.resetTick
  else s.runTick (if s.cmdReady then request else none)

/-- The tick of a presented command, as an outcome: it always has a next state (45_tick_step R192). -/
def present (r : Request) (s : State) : Host.Outcome State Fault Refusal := .next (s.tick (some r))

end Sys2Proof.Machine
end

