-- ==== Sys2Proof/Machine/HostPort.lean ====
section
/-! DEFINITION. The commands that do nothing: `NOP` (40_host_port R114) and the reserved opcodes
(30_encoding R98). Each meaning is the tick in which the command is presented; it takes effect if it
is accepted (40_host_port R111). -/

namespace Sys2Proof.Machine

/-- `NOP`: nothing is written, response 0 (40_host_port R114). -/
def execNop (_ignored : Byte) (s : State) : Host.Outcome State Fault Refusal :=
  present quietRequest s

/-- Opcode 6, reserved: accepted, does what `NOP` does, response 0 (30_encoding R98). Log entry 9. -/
def execRsv6 (_ignored : Byte) (s : State) : Host.Outcome State Fault Refusal :=
  present quietRequest s

/-- Opcode 7, reserved: accepted, does what `NOP` does, response 0 (30_encoding R98). Log entry 9. -/
def execRsv7 (_ignored : Byte) (s : State) : Host.Outcome State Fault Refusal :=
  present quietRequest s

end Sys2Proof.Machine
end

