-- ==== Sys2Proof/Machine/Line.lean ====
section
/-! DEFINITION. The line environment: the serial frame on the receive line (30_encoding R90), its
row's meaning, and the stimulus syntax (30_encoding R105). -/

namespace Sys2Proof.Machine

/-- The peer drives the ten slots of a frame word from this tick on, `BIT_PERIOD` ticks a slot. It
overrides what the schedule had for those ticks (30_encoding R105: "Later statements override
earlier ones where they overlap") and leaves the later ones. -/
def State.driveWord (F : FrameWord) (s : State) : State :=
  { s with rxIn := slotLevels s.cfg.bitPeriod F ++ s.rxIn.drop (frameTicks s.cfg) }

/-- `FRAME b`: the peer begins the frame of `b` on the receive line in this tick, in which the host
presents nothing; the rest of the frame stands on the line in the following ticks (30_encoding R90,
R92, R105). What the block makes of it is the receiver's own (41_receiver R144). Log entry 5. -/
def execFrame (data : Byte) (s : State) : Host.Outcome State Fault Refusal :=
  .next ((s.driveWord (frameWord data)).tick none)

/-- The level a stimulus statement drives in tick `t`, if it covers that tick (30_encoding R105). -/
def lineStmtLevel (bitPeriod : Nat) (t : Nat) : LineStmt → Option Level
  | .frame b start period =>
    let p := period.getD bitPeriod
    if start ≤ t ∧ t < start + 10 * p then some ((frameWord b).getLsbD ((t - start) / p)) else none
  | .low t1 t2 => if t1 ≤ t ∧ t ≤ t2 then some false else none

/-- The level of the line in tick `t` under a stimulus: that of the last statement that covers the
tick, and 1 where none does (30_encoding R105). -/
def stimulusLevel (bitPeriod : Nat) (stimulus : List LineStmt) (t : Nat) : Level :=
  stimulus.foldl (fun l st => (lineStmtLevel bitPeriod t st).getD l) true

/-- The first `n` ticks of a stimulus, as a schedule for `State.rxIn`. -/
def stimulusLevels (bitPeriod : Nat) (stimulus : List LineStmt) (n : Nat) : List Level :=
  (List.range n).map (stimulusLevel bitPeriod stimulus)

end Sys2Proof.Machine
end

