-- ==== Sys2Proof/Machine/Mailbox.lean ====
section
/-! DEFINITION. The consumer's commands: `RX_STATUS`, `RX_READ`, `RX_CLEAR`, `RX_TAKE`
(41_receiver R137 to R141). Each meaning is the tick in which the command is presented; it takes
effect if it is accepted (40_host_port R111). -/

namespace Sys2Proof.Machine

/-- `RX_STATUS`: response (rx_ready, 0x00), no state is written (41_receiver R137). -/
def execRxStatus (_ignored : Byte) (s : State) : Host.Outcome State Fault Refusal :=
  present { response := rspWord s.box.ready 0#8, send := none, clear := false } s

/-- `RX_READ`: response (0, rx_byte), no state is written; the flag is neither returned nor changed
(41_receiver R138). -/
def execRxRead (_ignored : Byte) (s : State) : Host.Outcome State Fault Refusal :=
  present { response := rspWord false s.box.byte, send := none, clear := false } s

/-- `RX_CLEAR`: `rx_ready <- 0` unless a publication falls in the tick; response 0 (41_receiver R139,
R141). -/
def execRxClear (_ignored : Byte) (s : State) : Host.Outcome State Fault Refusal :=
  present { response := 0#9, send := none, clear := true } s

/-- `RX_TAKE`: response (rx_ready, rx_byte) of the pre-state, then as `RX_CLEAR` (41_receiver R140,
R141). -/
def execRxTake (_ignored : Byte) (s : State) : Host.Outcome State Fault Refusal :=
  present { response := rspWord s.box.ready s.box.byte, send := none, clear := true } s

end Sys2Proof.Machine
end

