-- ==== Sys2Proof/Machine/Send.lean ====
section
/-! DEFINITION. The producer's command: `TX_SEND` (42_transmitter R151). The rest of a transmission
is the transmitter's own, in Machine/Ops.lean. -/

namespace Sys2Proof.Machine

/-- `TX_SEND data`: if accepted, the frame of `data` begins in the next tick; response 0
(42_transmitter R151). Its meaning is the tick in which it is presented. -/
def execTxSend (data : Byte) (s : State) : Host.Outcome State Fault Refusal :=
  present { response := 0#9, send := some data, clear := false } s

end Sys2Proof.Machine
end

