-- ==== Sys2Proof/Machine/Dispatch.lean ====
section
/-! DEFINITION. The meaning of each instruction, one arm per constructor. -/

namespace Sys2Proof.Machine

def exec (i : Instr) (s : State) : Host.Outcome State Fault Refusal :=
  match i with
  | .nop d => Sys2Proof.Machine.execNop d s
  | .txSend d => Sys2Proof.Machine.execTxSend d s
  | .rxStatus d => Sys2Proof.Machine.execRxStatus d s
  | .rxRead d => Sys2Proof.Machine.execRxRead d s
  | .rxClear d => Sys2Proof.Machine.execRxClear d s
  | .rxTake d => Sys2Proof.Machine.execRxTake d s
  | .rsv6 d => Sys2Proof.Machine.execRsv6 d s
  | .rsv7 d => Sys2Proof.Machine.execRsv7 d s
  | .frame d => Sys2Proof.Machine.execFrame d s

end Sys2Proof.Machine
end

