-- ==== Sys2Proof/Machine/Formatter.lean ====
section
/-! DEFINITION. The Formatter, a collaborator OUTSIDE the hardware (00_scope R5): the characters that
a `PRINTF` statement of a host program sends (43_formatter_collaborators R165 to R174; 30_encoding
R103). No step of the block uses it; only the expansion of a host program does. Log entry 13. -/

namespace Sys2Proof.Machine

/-- The code of a decimal digit: `0x30` plus the digit (R168). -/
def digitCode (d : Nat) : Byte := BitVec.ofNat 8 (0x30 + d)

/-- `%u`: always three digits, hundreds, tens, ones (R168). -/
def formatUnsigned (n : Nat) : List Byte :=
  [digitCode (n / 100), digitCode (n / 10 % 10), digitCode (n % 10)]

/-- The magnitude `%d` renders; at `0x80` it is the open parameter `FMT_NEG128` (R167). -/
def magnitude (m : FmtNeg128) (v : Byte) : Nat :=
  if v.getLsbD 7 = false then v.toNat
  else if v = 0x80#8 then
    match m with
    | .wrap => 128
    | .saturate => 127
  else 256 - v.toNat

/-- `%d`: a minus sign or a space, then the magnitude as `%u` (R167). -/
def formatSigned (m : FmtNeg128) (v : Byte) : List Byte :=
  (if v.getLsbD 7 then 0x2D#8 else 0x20#8) :: formatUnsigned (magnitude m v)

/-- `%b`: eight binary digits, most significant first (R169). -/
def formatBinary (v : Byte) : List Byte :=
  (List.range 8).map fun i => if v.getLsbD (7 - i) then 0x31#8 else 0x30#8

/-- What the directive character after a `%` produces (R167 to R172): `d`, `u`, `b`, `c`, `%`, and
the marker `!` for any other. -/
def formatDirective (m : FmtNeg128) (v d : Byte) : List Byte :=
  if d = 0x64#8 then formatSigned m v
  else if d = 0x75#8 then formatUnsigned v.toNat
  else if d = 0x62#8 then formatBinary v
  else if d = 0x63#8 then [v]
  else if d = 0x25#8 then [0x25#8]
  else [0x21#8]

/-- The characters of a template with one value: the scan stops at the first null (R165), a
character not after a `%` is sent as it stands (R166), every directive uses the same value (R173),
and a template whose `%` meets the terminator is refused: none (R174). -/
def formatTemplate (m : FmtNeg128) (v : Byte) : List Byte → Option (List Byte)
  | [] => some []
  | [c] => if c = 0#8 then some [] else if c = 0x25#8 then none else some [c]
  | c :: d :: rest =>
    if c = 0#8 then some []
    else if c = 0x25#8 then
      if d = 0#8 then none
      else (formatTemplate m v rest).map (formatDirective m v d ++ ·)
    else (formatTemplate m v (d :: rest)).map (c :: ·)

end Sys2Proof.Machine
end

