-- ==== Sys2Proof/Machine/HostAgent.lean ====
section
/-! DEFINITION. The host as an agent: what it presents in a tick, how it goes on after one, and the
expansion of host-program statements (30_encoding R102 to R104). -/

namespace Sys2Proof.Machine

/-- The command on the port this tick: `in.cmd_word` where `in.cmd_valid = 1`, none where it is 0
(10_state R50). A name that nothing has bound gives no command. Log entry 8. -/
def HostAgent.presents (h : HostAgent) : Option CmdWord :=
  match h.ops with
  | [] => none
  | .quiet :: _ => none
  | .offer w :: _ => some w
  | .issue w _ :: _ => some w
  | .poll :: _ => some (commandWord 0b010#3 0#8)
  | .sendVar name :: _ => (h.vars.lookup name).map fun r => commandWord 0b001#3 (rspByte r)

/-- The host's names after it binds a response to one, if it does (30_encoding R102). -/
def bindResponse (bind : Option Nat) (r : RspWord) (vars : List (Nat × RspWord)) :
    List (Nat × RspWord) :=
  match bind with
  | none => vars
  | some name => (name, r) :: vars.filter (fun x => x.1 != name)

/-- The host after a tick in which its command was or was not accepted, with response `r`: it keeps
presenting the same command until it is accepted, and goes on to the next statement in the tick
after (30_encoding R104); a poll goes on when a response has flag 1 (R103). -/
def HostAgent.advance (accepted : Bool) (r : RspWord) (h : HostAgent) : HostAgent :=
  match h.ops with
  | [] => h
  | .quiet :: rest => { h with ops := rest }
  | .offer _ :: rest => { h with ops := rest }
  | .issue _ bind :: rest =>
    if accepted then { ops := rest, vars := bindResponse bind r h.vars } else h
  | .poll :: rest => if accepted && rspFlag r then { h with ops := rest } else h
  | .sendVar _ :: rest => if accepted then { h with ops := rest } else h

/-- The state after a tick from `pre` to `post`, with the host moved on by the response of that tick. -/
def settleHost (pre post : State) : State :=
  { post with host := pre.host.advance post.accepted post.rsp }

/-- A function of the next state, carried through an outcome. -/
def mapNext (f : State → State) :
    Host.Outcome State Fault Refusal → Host.Outcome State Fault Refusal
  | .next t => .next (f t)
  | .fault e => .fault e
  | .refused r => .refused r

/-- The word that issues a command instruction. -/
def instrWord (i : Instr) : CmdWord := BitVec.ofNat 11 (encode i)

/-- What a statement makes the host do (30_encoding R102, R103), or none where the statement is not a
host statement (a `FRAME`, which no host issues) or its template is refused (R174). The value of a
`PRINTF` is a literal byte (log entry 19). -/
def expandStmt (m : FmtNeg128) : Stmt → Option (List HostOp)
  | .command i bind => if i.isCommand then some [.issue (instrWord i) bind] else none
  | .sendVar name => some [.sendVar name]
  | .idle n => some (List.replicate n .quiet)
  | .wait n => some (List.replicate n (.issue (instrWord (.nop 0#8)) none))
  | .poll => some [.poll]
  | .getc bind =>
    some [.poll, .issue (instrWord (.rxRead 0#8)) bind, .issue (instrWord (.rxClear 0#8)) none]
  | .putc c => some [.issue (instrWord (.txSend c)) none]
  | .puts s => some (s.map fun c => .issue (instrWord (.txSend c)) none)
  | .printf template v =>
    (formatTemplate m v template).map fun cs => cs.map fun c => .issue (instrWord (.txSend c)) none

/-- What a whole program makes the host do, statement after statement. -/
def expandProgram (m : FmtNeg128) : List Stmt → Option (List HostOp)
  | [] => some []
  | st :: rest => (expandStmt m st).bind fun a => (expandProgram m rest).map (a ++ ·)

/-- The state with a host program loaded: the first statement's command is presented in this tick
(30_encoding R104). -/
def State.loadProgram (ops : List HostOp) (s : State) : State :=
  { s with host := { s.host with ops := ops } }

end Sys2Proof.Machine
end

