-- ==== Sys2Proof/Machine/Step.lean ====
section
/-! DEFINITION. One step is one tick (45_tick_step R190): the instruction on the command port runs, or
the block ticks with nothing presented, and then the host moves on by the response. -/

namespace Sys2Proof.Machine

/-- One tick of the whole machine. A command is decoded and executed in the tick in which it is
presented; the block stores no program (20_memory R85). -/
def step (s : State) : Host.Outcome State Fault Refusal :=
  match s.host.presents with
  | some w => mapNext (settleHost s) (exec (decodeCommand w) s)
  | none => .next (settleHost s (s.tick none))

/-- The state in which the very next step runs the instruction whose bits are `w`: a frame word goes
on the receive line from this tick on, with the host silent; a command word is presented on the
port in this one tick. Log entries 6 and 10. -/
def State.withFetchWord (s : State) (nbits w : Nat) : State :=
  if isLineWidth nbits then
    let driven := s.driveWord (BitVec.ofNat 10 w)
    { driven with host := { s.host with ops := .quiet :: s.host.ops } }
  else { s with host := { s.host with ops := .offer (BitVec.ofNat 11 w) :: s.host.ops } }

end Sys2Proof.Machine
end

