-- ==== Sys2Proof/Machine/Ports.lean ====
section
/-! DEFINITION. The output ports (10_state R52; 40_host_port R113), as functions of the pre-state and,
for the response, of this tick's inputs. -/

namespace Sys2Proof.Machine

/-- The outputs of the block in one tick (10_state R52). -/
structure Outputs where
  txLine : Level
  rxReady : Bool
  rxByte : Byte
  txBusy : Bool
  rxBusy : Bool
  cmdReady : Bool
  rspWord : RspWord
  deriving DecidableEq, Repr

/-- The response table: the response of a command that is accepted in the pre-state `s`
(40_host_port R113). A frame is no command. -/
def responseTable (s : State) : Instr → RspWord
  | .nop _ => 0#9
  | .txSend _ => 0#9
  | .rxClear _ => 0#9
  | .rsv6 _ => 0#9
  | .rsv7 _ => 0#9
  | .rxStatus _ => rspWord s.box.ready 0#8
  | .rxRead _ => rspWord false s.box.byte
  | .rxTake _ => rspWord s.box.ready s.box.byte
  | .frame _ => 0#9

/-- A command is accepted this tick: it is presented and the port is open (40_host_port R111), and the
tick is not a reset (70_reset_and_hazards R230). -/
def State.acceptsNow (s : State) : Bool :=
  s.host.presents.isSome && s.cmdReady && !s.rstNow

/-- `out.rsp_word`: 0 in a tick in which no command is accepted (30_encoding R96). -/
def State.responseNow (s : State) : RspWord :=
  match s.host.presents with
  | some w => if s.acceptsNow then responseTable s (decodeCommand w) else 0#9
  | none => 0#9

/-- The output ports at a tick with pre-state `s` (10_state R52). -/
def State.outputs (s : State) : Outputs :=
  { txLine := s.tx.line, rxReady := s.box.ready, rxByte := s.box.byte, txBusy := s.tx.active,
    rxBusy := s.rx.active, cmdReady := s.cmdReady, rspWord := s.responseNow }

end Sys2Proof.Machine
end

