-- ==== Sys2Proof/Machine/Wiring.lean ====
section
/-! DEFINITION. A transmit line wired to a receive line (10_state R53; 60_exceptions R217): the level
the receiving block samples in a tick is the driving block's `tx_line` of the same tick, a Moore
output, with no extra tick of delay. Log entry 18. -/

namespace Sys2Proof.Machine

/-- The state whose receive line carries `l` in this tick, whatever its schedule had. -/
def State.driveLevel (l : Level) (s : State) : State := { s with rxIn := l :: s.rxIn.tail }

/-- One tick of a block whose transmit line drives its own receive line. -/
def loopStep (s : State) : Host.Outcome State Fault Refusal := step (s.driveLevel s.tx.line)

/-- `n` ticks of a block wired to itself. -/
def loopRun : Nat → State → Host.Outcome State Fault Refusal
  | 0, s => .next s
  | n + 1, s =>
    match loopStep s with
    | .next t => loopRun n t
    | .fault e => .fault e
    | .refused r => .refused r

/-- One tick of two blocks, the transmit line of the first wired to the receive line of the second;
none if either stops, which no step does. -/
def linkStep (a b : State) : Option (State × State) :=
  match step a, step (b.driveLevel a.tx.line) with
  | .next a', .next b' => some (a', b')
  | _, _ => none

/-- `n` ticks of two wired blocks. -/
def linkRun : Nat → State → State → Option (State × State)
  | 0, a, b => some (a, b)
  | n + 1, a, b => (linkStep a b).bind fun ab => linkRun n ab.1 ab.2

/-- One tick of two blocks wired both ways: each is the other's line environment (60_exceptions R217). -/
def crossStep (a b : State) : Option (State × State) :=
  match step (a.driveLevel b.tx.line), step (b.driveLevel a.tx.line) with
  | .next a', .next b' => some (a', b')
  | _, _ => none

end Sys2Proof.Machine
end

