-- ==== Sys2Proof/Safety.lean ====
section
/-! DEFINITION. The terms in which claims are stated: runs, the invariant of reachable states
(10_state R54), and the moves of each engine written from the rules' own conditions and right-hand
sides, apart from the operations of Machine/Ops.lean. -/

namespace Sys2Proof.Machine

/-! ### Runs -/

/-- `n` ticks lead from `s` to `t`. -/
def Reaches (n : Nat) (s t : State) : Prop := Sys2Proof.core.run n s = .next t

/-- The level of the receive line `j` ticks after the pre-state `s` (30_encoding R105). -/
def State.lineAt (s : State) (j : Nat) : Level := s.rxIn.getD j true

/-- No reset in the next `n` ticks. -/
def State.noResetFor (s : State) (n : Nat) : Prop := ∀ j, j < n → s.rstIn.getD j false = false

/-- Ticks from detection to publication, `START_DELAY + 7 * BIT_PERIOD` (41_receiver R143). -/
def receptionTicks (c : Config) : Nat := startDelay c + 7 * c.bitPeriod

/-! ### Conditions and values of the rules -/

/-- `pend` of a tick: the latch is set, or the line falls (41_receiver R125, R126). -/
abbrev State.Pending (s : State) : Prop :=
  s.rx.edgePending = true ∨ (s.rx.prev = true ∧ s.lineNow = false)

/-- The condition of `RX_PUBLISH` (41_receiver R134). -/
abbrev State.Publishing (s : State) : Prop :=
  s.rx.active = true ∧ s.rx.timer ≤ 1 ∧ s.rx.cnt.toNat ≤ 1

/-- The accumulator after a sample: the line level enters bit 7 and every bit moves down one place
(41_receiver R131; 00_scope R16). -/
def State.sampled (s : State) : Byte := (if s.lineNow then 0x80#8 else 0x00#8) ||| (s.rx.acc >>> 1)

/-- The mailbox after a tick in which an accepted command does or does not clear the flag: a publication
wins (41_receiver R134, R139, R141). -/
def State.boxAfter (s : State) (clears : Bool) : Mailbox :=
  if s.Publishing then { byte := s.sampled, ready := true }
  else if clears then { byte := s.box.byte, ready := false } else s.box

/-- The receiver's moves in a tick without reset (41_receiver R125 to R134; 45_tick_step R196). -/
structure ReceiverMoves (s t : State) : Prop where
  /-- `RX_START` (R128). -/
  start : s.rx.active = false → s.Pending →
    t.rx = { prev := s.lineNow, edgePending := true, active := true, timer := 3 * s.cfg.bitPeriod / 2,
             cnt := 8#4, acc := s.rx.acc, c := s.rx.c }
  /-- Idle (R130). -/
  idle : s.rx.active = false → ¬ s.Pending → t.rx = { s.rx with prev := s.lineNow }
  /-- `RX_COUNT` (R129). -/
  count : s.rx.active = true → 1 < s.rx.timer →
    t.rx = { s.rx with prev := s.lineNow, timer := s.rx.timer - 1, edgePending := decide s.Pending }
  /-- `RX_SAMPLE` with more samples to come (R131). -/
  sample : s.rx.active = true → s.rx.timer ≤ 1 → 1 < s.rx.cnt.toNat →
    t.rx = { prev := s.lineNow, edgePending := decide s.Pending, active := true,
             timer := s.cfg.bitPeriod, cnt := s.rx.cnt - 1#4, acc := s.sampled,
             c := s.rx.acc.getLsbD 0 }
  /-- The last `RX_SAMPLE` with `RX_PUBLISH` (R131, R134). -/
  publish : s.Publishing →
    t.rx = { prev := s.lineNow, edgePending := false, active := false, timer := 0, cnt := 0#4,
             acc := s.sampled, c := s.rx.acc.getLsbD 0 }

/-- What a tick without reset leaves to the environment: the parameters and the free-value counter
stand, and the inputs of the tick are used up. -/
structure TickUsesInputs (s t : State) : Prop where
  cfg : t.cfg = s.cfg
  rstIn : t.rstIn = s.rstIn.tail
  rxIn : t.rxIn = s.rxIn.tail
  freeCtr : t.freeCtr = s.freeCtr

/-- The tick is stalled (60_exceptions R207). -/
abbrev State.Stalled (s : State) : Prop := s.cfg.rxPreempts = true ∧ s.rx.active = true

/-- A command presented now is accepted: no reset, and the port is open (40_host_port R111;
70_reset_and_hazards R230). -/
abbrev State.PortOpen (s : State) : Prop :=
  s.rstNow = false ∧ s.tx.active = false ∧ ¬ s.Stalled

/-- The opcode bits of a word, in place (30_encoding R94, `mask = 0x700`). -/
abbrev opBits (w : CmdWord) : CmdWord := w &&& 0x700#11

/-- The host presents a command that clears the flag: `RX_CLEAR` or `RX_TAKE` (10_state R39). -/
abbrev State.ClearPresented (s : State) : Prop :=
  ∃ w, s.host.presents = some w ∧ (opBits w = 0x400#11 ∨ opBits w = 0x500#11)

/-- The byte of the `TX_SEND` the host presents, if it presents one (42_transmitter R151). -/
def State.sendPresented (s : State) : Option Byte :=
  s.host.presents.bind fun w => if opBits w = 0x100#11 then some (w.setWidth 8) else none

/-- The transmitter's moves in a tick without reset, given the byte of an accepted `TX_SEND` if any
(42_transmitter R151 to R155, R160; 45_tick_step R197; 60_exceptions R207). -/
structure TransmitterMoves (send : Option Byte) (s t : State) : Prop where
  /-- A stalled tick keeps every field (R207). -/
  stalled : s.Stalled → t.tx = s.tx
  /-- Idle (R160). -/
  idle : ¬ s.Stalled → s.tx.active = false → send = none → t.tx = s.tx
  /-- `TX_SEND` (R151). -/
  start : ¬ s.Stalled → s.tx.active = false → ∀ d, send = some d →
    t.tx = { active := true, timer := s.cfg.bitPeriod, cnt := 9#4, sr := d, c := false, line := false }
  /-- `TX_COUNT` (R152). -/
  count : ¬ s.Stalled → s.tx.active = true → 1 < s.tx.timer →
    t.tx = { s.tx with timer := s.tx.timer - 1 }
  /-- `TX_STEP` (R153). -/
  step : ¬ s.Stalled → s.tx.active = true → s.tx.timer ≤ 1 → 0 < s.tx.cnt.toNat →
    t.tx = { active := true, timer := s.cfg.bitPeriod, cnt := s.tx.cnt - 1#4,
             sr := 0x80#8 ||| (s.tx.sr >>> 1), c := s.tx.sr.getLsbD 0, line := s.tx.sr.getLsbD 0 }
  /-- `TX_END` (R155). -/
  stop : ¬ s.Stalled → s.tx.active = true → s.tx.timer ≤ 1 → s.tx.cnt = 0#4 →
    t.tx = { s.tx with active := false, timer := 0 }

/-- The frame of a command: the receiver makes its own move, the inputs of the tick are used up, and
the parameters, the free-value counter and the host stand. -/
structure CommandFrame (s t : State) : Prop where
  receiver : ReceiverMoves s t
  inputs : TickUsesInputs s t
  host : t.host = s.host

/-- The fields the spec gives a value at reset have it (10_state R58). The four unspecified ones are
not named. -/
structure AtReset (t : State) : Prop where
  rxPrev : t.rx.prev = true
  edgePending : t.rx.edgePending = false
  rxActive : t.rx.active = false
  rxTimer : t.rx.timer = 0
  rxCnt : t.rx.cnt = 0#4
  rxReady : t.box.ready = false
  txActive : t.tx.active = false
  txTimer : t.tx.timer = 0
  txCnt : t.tx.cnt = 0#4
  txC : t.tx.c = true
  txLine : t.tx.line = true

/-! ### The invariant -/

/-- 10_state R54, items 1 and 2: the receiver's position. -/
abbrev RxInv (c : Config) (rx : Receiver) : Prop :=
  (rx.active = false → rx.cnt = 0#4 ∧ rx.timer = 0 ∧ rx.edgePending = false) ∧
  (rx.active = true →
    1 ≤ rx.cnt.toNat ∧ rx.cnt.toNat ≤ 8 ∧ 1 ≤ rx.timer ∧ rx.timer ≤ startDelay c ∧
    rx.edgePending = true ∧ (rx.cnt.toNat < 8 → rx.timer ≤ c.bitPeriod))

/-- 10_state R54, items 3, 4 and 5: the transmitter's position, and the line that mirrors the carry; and
what makes them inductive, the primed ones of 42_transmitter R154: with `tx_cnt` steps still to do the
bits of `tx_sr` from `tx_cnt - 1` up are 1, and with none the line is at the stop level. -/
abbrev TxInv (c : Config) (tx : Transmitter) : Prop :=
  (tx.active = false → tx.cnt = 0#4 ∧ tx.timer = 0 ∧ tx.line = true ∧ tx.c = true) ∧
  (tx.active = true →
    tx.cnt.toNat ≤ 9 ∧ 1 ≤ tx.timer ∧ tx.timer ≤ c.bitPeriod ∧
    (∀ k : Nat, k < 8 → tx.cnt.toNat ≤ k + 1 → tx.sr.getLsbD k = true) ∧
    (tx.cnt = 0#4 → tx.line = true)) ∧
  tx.line = tx.c

/-- The invariant of reachable states, with the parameters allowed (10_state R54, items 1 to 5;
42_transmitter R154; 00_scope R6). -/
abbrev State.Inv (s : State) : Prop := s.cfg.WF ∧ RxInv s.cfg s.rx ∧ TxInv s.cfg s.tx

end Sys2Proof.Machine
end

