-- ==== Sys2Proof/Certificates/Slice0/Obligations.lean ====
section
/-! DEFINITION. The statements about the block, for the provers. Each docstring names the rules of
spec/ it formalises. A tick is one step; `exec` is the tick in which an instruction is presented. -/

open Sys2Proof Sys2Proof.Machine

/-! ### Encoding -/

/-- 30_encoding R94: every value of `op` is assigned, by match and mask `0x700`; the operand is the
low byte as it stands. -/
def Obligations.OpcodeMapDecodesEveryWord : Prop :=
  ∀ w : CmdWord,
    (opBits w = 0x000#11 → decodeCommand w = .nop (w.setWidth 8)) ∧
    (opBits w = 0x100#11 → decodeCommand w = .txSend (w.setWidth 8)) ∧
    (opBits w = 0x200#11 → decodeCommand w = .rxStatus (w.setWidth 8)) ∧
    (opBits w = 0x300#11 → decodeCommand w = .rxRead (w.setWidth 8)) ∧
    (opBits w = 0x400#11 → decodeCommand w = .rxClear (w.setWidth 8)) ∧
    (opBits w = 0x500#11 → decodeCommand w = .rxTake (w.setWidth 8)) ∧
    (opBits w = 0x600#11 → decodeCommand w = .rsv6 (w.setWidth 8)) ∧
    (opBits w = 0x700#11 → decodeCommand w = .rsv7 (w.setWidth 8))

/-- Words written out from the spec: the command words of 95_test_vectors V2 (30_encoding R93, R94) and
the frame of 0xA5 (30_encoding R90). -/
def Obligations.WrittenOutWordsDecode : Prop :=
  decodeTableWord 11 0b00001011010 = some (.nop 0x5A#8) ∧
  decodeTableWord 11 0b00101011010 = some (.txSend 0x5A#8) ∧
  decodeTableWord 11 0b01001011010 = some (.rxStatus 0x5A#8) ∧
  decodeTableWord 11 0b01101011010 = some (.rxRead 0x5A#8) ∧
  decodeTableWord 11 0b10001011010 = some (.rxClear 0x5A#8) ∧
  decodeTableWord 11 0b10101011010 = some (.rxTake 0x5A#8) ∧
  decodeTableWord 11 0b11001011010 = some (.rsv6 0x5A#8) ∧
  decodeTableWord 11 0b11101011010 = some (.rsv7 0x5A#8) ∧
  decodeTableWord 10 0b1101001010 = some (.frame 0xA5#8)

/-- Decode and encode agree for every instruction and every operand, at the row's width, and for a
command also at its width in whole bytes. The words are those of 30_encoding R90 and R93 to R95; that a
number is read by the width given with it, and the second clause's 16 bits, are the model's choice
(log entry 6): the spec has no 16-bit word. -/
def Obligations.DecodeOfEncodeIsTheInstruction : Prop :=
  (∀ i : Instr, i.wf = true → decodeTableWord i.nbits (encode i) = some i) ∧
  (∀ i : Instr, i.isCommand = true → decodeTableWord 16 (encode i) = some i)

/-- 30_encoding R99: all 2048 command words decode, each to a command that encodes back to the same
word, so no bit of a word is dropped. The second clause, that a number above 11 bits is no word and is
refused, is the model's choice (log entry 6). -/
def Obligations.EveryCommandWordDecodesAndEncodesBack : Prop :=
  (∀ w : Nat, w < 2048 →
    ∃ i : Instr, i.isCommand = true ∧ decodeTableWord 11 w = some i ∧ encode i = w) ∧
  (∀ w : Nat, 2048 ≤ w → decodeTableWord 11 w = none)

/-- 30_encoding R90: the 10-bit words with start 0 and stop 1 are the frames, and their data is bits 8:1.
That the others are refused, and by which name, is the model's choice (log entry 6): R90 names no
refusal, and the block receives any levels (R100). -/
def Obligations.FrameWordsDecodeExactly : Prop :=
  ∀ w : Nat,
    (w < 1024 → w % 2 = 0 → 512 ≤ w → decodeRaw 10 w = .ok (.frame (BitVec.ofNat 8 (w / 2)))) ∧
    (w < 1024 → w % 2 = 1 → decodeRaw 10 w = .error .startNotLow) ∧
    (w < 512 → w % 2 = 0 → decodeRaw 10 w = .error .stopNotHigh) ∧
    (1024 ≤ w → decodeRaw 10 w = .error .noSuchWord)

/-- 30_encoding R90, 20_memory R71: the frame of a byte is ten slots of `BIT_PERIOD` ticks: start 0,
the data bits least significant first, stop 1. -/
def Obligations.FrameIsTenSlotsLeastSignificantBitFirst : Prop :=
  ∀ (period : Nat) (b : Byte),
    (slotLevels period (frameWord b)).length = 10 * period ∧
    ∀ i j : Nat, i < 10 → j < period →
      (slotLevels period (frameWord b))[i * period + j]? =
        some (if i = 0 then false else if i = 9 then true else b.getLsbD (i - 1))

/-- 30_encoding R93: `data` is ignored, whatever its value, by every command other than `TX_SEND`. -/
def Obligations.OperandIsIgnoredOutsideTxSend : Prop :=
  ∀ (w w' : CmdWord) (s : State), opBits w = opBits w' → opBits w ≠ 0x100#11 →
    exec (decodeCommand w) s = exec (decodeCommand w') s

/-- 00_scope R16: the rotate right through carry. -/
def Obligations.RotateRightThroughCarry : Prop :=
  ∀ (c : Level) (v : Byte),
    (rrc c v).1 = v.getLsbD 0 ∧ (rrc c v).2.getLsbD 7 = c ∧
    ∀ k : Nat, k < 7 → (rrc c v).2.getLsbD k = v.getLsbD (k + 1)

/-! ### Reset -/

/-- 10_state R58: the reset state and its outputs. (`rx_acc`, `rx_c`, `rx_byte`, `tx_sr` are
unspecified and not named.) -/
def Obligations.ResetStateHasTheSpecifiedValues : Prop :=
  AtReset State.reset ∧
  State.reset.outputs.cmdReady = true ∧ State.reset.outputs.txLine = true ∧
  State.reset.outputs.rxReady = false ∧ State.reset.outputs.txBusy = false ∧
  State.reset.outputs.rxBusy = false

/-- 70_reset_and_hazards R230: in a tick with `in.rst = 1` the next state is the reset state, whatever
the pre-state and the other inputs; no command is accepted and the response is 0. -/
def Obligations.ResetBeatsEverythingElse : Prop :=
  ∀ s : State, s.rstNow = true →
    (∀ i : Instr, ∃ t, exec i s = .next t ∧ AtReset t ∧ t.accepted = false ∧ t.rsp = 0#9 ∧
      t.cfg = s.cfg) ∧
    (∃ t, step s = .next t ∧ AtReset t ∧ t.accepted = false ∧ t.rsp = 0#9 ∧ t.cfg = s.cfg ∧
      s.outputs.rspWord = 0#9)

/-! ### The step -/

/-- A step runs the instruction that the presented word decodes to, in the tick in which it is presented
(20_memory R85; 45_tick_step R190), and the host goes on by the response; with nothing presented no
command is accepted. What each host operation presents is stated as well (30_encoding R103, R104;
the operations and what an unbound name does are the model's choice, log entries 1 and 8). -/
def Obligations.StepRunsThePresentedInstruction : Prop :=
  (∀ (s t : State) (w : CmdWord), s.host.presents = some w → exec (decodeCommand w) s = .next t →
    step s = .next { t with host := s.host.advance t.accepted t.rsp }) ∧
  (∀ s : State, s.host.presents = none → ∃ t, step s = .next t ∧ t.accepted = false ∧ t.rsp = 0#9) ∧
  (∀ vars : List (Nat × RspWord), HostAgent.presents { ops := [], vars := vars } = none) ∧
  (∀ (rest : List HostOp) (vars : List (Nat × RspWord)) (w : CmdWord) (b : Option Nat) (n : Nat)
      (r : RspWord),
    HostAgent.presents { ops := .quiet :: rest, vars := vars } = none ∧
    HostAgent.presents { ops := .offer w :: rest, vars := vars } = some w ∧
    HostAgent.presents { ops := .issue w b :: rest, vars := vars } = some w ∧
    HostAgent.presents { ops := .poll :: rest, vars := vars } = some 0x200#11 ∧
    HostAgent.presents { ops := .sendVar n :: rest, vars := (n, r) :: vars } =
      some (0x100#11 ||| (r.setWidth 8).setWidth 11) ∧
    HostAgent.presents { ops := .sendVar n :: rest, vars := [] } = none)

/-- The next step of a state that fetches a word runs exactly the instruction of that word: a command
word on the port, a frame word on the receive line (log entries 6 and 10 are the model's choice). -/
def Obligations.FetchedWordRunsNext : Prop :=
  ∀ s : State,
    (∀ w : Nat, w < 2048 → step (s.withFetchWord 11 w) = exec (decodeCommand (BitVec.ofNat 11 w)) s) ∧
    (∀ w : Nat, w < 2048 → step (s.withFetchWord 16 w) = exec (decodeCommand (BitVec.ofNat 11 w)) s) ∧
    (∀ b : Byte, step (s.withFetchWord 10 (encode (.frame b))) = exec (.frame b) s)

/-- 45_tick_step R192: the step and every instruction's tick have a next state in every state; there is
no fault and no refusal. -/
def Obligations.EveryTickHasANextState : Prop :=
  (∀ s : State, ∃ t, step s = .next t) ∧ (∀ (i : Instr) (s : State), ∃ t, exec i s = .next t)

/-- 40_host_port R111, with 70_reset_and_hazards R230: a command is accepted in a tick exactly when one
is presented, no reset is applied and the port is open; the port's output is that function of the
pre-state. -/
def Obligations.CommandIsAcceptedExactlyWhenPortIsOpen : Prop :=
  ∀ s : State,
    (s.outputs.cmdReady = true ↔
      s.tx.active = false ∧ ¬ (s.cfg.rxPreempts = true ∧ s.rx.active = true)) ∧
    ∃ t, step s = .next t ∧
      (t.accepted = true ↔
        s.rstNow = false ∧ (∃ w, s.host.presents = some w) ∧ s.outputs.cmdReady = true)

/-- 40_host_port R113: the response of every tick, row by row; and it is what the port shows. -/
def Obligations.ResponseFollowsTheTable : Prop :=
  ∀ s : State, ∃ t, step s = .next t ∧ t.rsp = s.outputs.rspWord ∧
    (t.accepted = false → t.rsp = 0#9) ∧
    ∀ w, s.host.presents = some w → t.accepted = true →
      (opBits w = 0x000#11 ∨ opBits w = 0x100#11 ∨ opBits w = 0x400#11 ∨ opBits w = 0x600#11 ∨
        opBits w = 0x700#11 → t.rsp = 0#9) ∧
      (opBits w = 0x200#11 → t.rsp = if s.box.ready then 0x100#9 else 0x000#9) ∧
      (opBits w = 0x300#11 → t.rsp = s.box.byte.setWidth 9) ∧
      (opBits w = 0x500#11 →
        t.rsp = (if s.box.ready then 0x100#9 else 0x000#9) ||| s.box.byte.setWidth 9)

/-- 40_host_port R112: a command presented while the port is closed is not accepted; its response is 0,
and the tick is that of a silent host: both engines make their own moves and the mailbox changes by
a publication only. -/
def Obligations.ClosedPortCommandHasNoEffect : Prop :=
  ∀ (i : Instr) (s : State), i.isCommand = true → s.rstNow = false → s.outputs.cmdReady = false →
    ∃ t, exec i s = .next t ∧ t.accepted = false ∧ t.rsp = 0#9 ∧
      CommandFrame s t ∧ t.box = s.boxAfter false ∧ TransmitterMoves none s t

/-! ### The commands, accepted -/

/-- 40_host_port R114, 30_encoding R98: `NOP` and the reserved opcodes are accepted, write nothing and
answer 0. -/
def Obligations.NopAndReservedWriteNothing : Prop :=
  ∀ (s : State) (d : Byte), s.PortOpen →
    ∀ i : Instr, i = .nop d ∨ i = .rsv6 d ∨ i = .rsv7 d →
      ∃ t, exec i s = .next t ∧ t.accepted = true ∧ t.rsp = 0#9 ∧
        CommandFrame s t ∧ t.box = s.boxAfter false ∧ t.tx = s.tx

/-- 42_transmitter R151: `TX_SEND` loads the transmitter and drives the start bit; nothing else but
the receiver's own move. -/
def Obligations.TxSendLoadsTheTransmitter : Prop :=
  ∀ (s : State) (d : Byte), s.PortOpen →
    ∃ t, exec (.txSend d) s = .next t ∧ t.accepted = true ∧ t.rsp = 0#9 ∧
      t.tx = { active := true, timer := s.cfg.bitPeriod, cnt := 9#4, sr := d, c := false, line := false } ∧
      CommandFrame s t ∧ t.box = s.boxAfter false

/-- 41_receiver R137: `RX_STATUS` answers the flag and writes no state. -/
def Obligations.RxStatusAnswersTheFlag : Prop :=
  ∀ (s : State) (d : Byte), s.PortOpen →
    ∃ t, exec (.rxStatus d) s = .next t ∧ t.accepted = true ∧
      t.rsp = (if s.box.ready then 0x100#9 else 0x000#9) ∧
      CommandFrame s t ∧ t.box = s.boxAfter false ∧ t.tx = s.tx

/-- 41_receiver R138: `RX_READ` answers the byte, whatever the flag, and writes no state. -/
def Obligations.RxReadAnswersTheByte : Prop :=
  ∀ (s : State) (d : Byte), s.PortOpen →
    ∃ t, exec (.rxRead d) s = .next t ∧ t.accepted = true ∧ t.rsp = s.box.byte.setWidth 9 ∧
      CommandFrame s t ∧ t.box = s.boxAfter false ∧ t.tx = s.tx

/-- 41_receiver R139: `RX_CLEAR` clears the flag unless a publication falls in the tick, leaves the
byte, and answers 0. -/
def Obligations.RxClearClearsTheFlag : Prop :=
  ∀ (s : State) (d : Byte), s.PortOpen →
    ∃ t, exec (.rxClear d) s = .next t ∧ t.accepted = true ∧ t.rsp = 0#9 ∧
      (¬ s.Publishing → t.box = { byte := s.box.byte, ready := false }) ∧
      CommandFrame s t ∧ t.box = s.boxAfter true ∧ t.tx = s.tx

/-- 41_receiver R140: `RX_TAKE` answers flag and byte of the pre-state and clears the flag unless a
publication falls in the tick; the byte is not changed. -/
def Obligations.RxTakeAnswersAndClears : Prop :=
  ∀ (s : State) (d : Byte), s.PortOpen →
    ∃ t, exec (.rxTake d) s = .next t ∧ t.accepted = true ∧
      t.rsp = ((if s.box.ready then 0x100#9 else 0x000#9) ||| s.box.byte.setWidth 9) ∧
      (¬ s.Publishing → t.box = { byte := s.box.byte, ready := false }) ∧
      CommandFrame s t ∧ t.box = s.boxAfter true ∧ t.tx = s.tx

/-- `FRAME b` in every state without reset: the line goes to 0 in this tick, the rest of the frame
stands on it in the following ticks, the host presents nothing, and both engines make their own
moves (30_encoding R90, R92, R105; that the row runs as one tick is log entry 5). -/
def Obligations.FrameBeginsOnTheReceiveLine : Prop :=
  ∀ (s : State) (b : Byte), s.rstNow = false → 0 < s.cfg.bitPeriod →
    ∃ t, exec (.frame b) s = .next t ∧ t.accepted = false ∧ t.rsp = 0#9 ∧
      t.rxIn = (slotLevels s.cfg.bitPeriod (frameWord b)).tail ++ s.rxIn.drop (10 * s.cfg.bitPeriod) ∧
      ReceiverMoves { s with rxIn := [false] } t ∧
      t.box = State.boxAfter { s with rxIn := [false] } false ∧
      TransmitterMoves none s t ∧
      t.cfg = s.cfg ∧ t.rstIn = s.rstIn.tail ∧ t.host = s.host ∧ t.freeCtr = s.freeCtr

/-- 41_receiver R141: publication wins over a clear in the same tick; the response shows the old flag and
byte; and the case needs `RX_PREEMPTS = false`. -/
def Obligations.PublicationWinsOverAClear : Prop :=
  ∀ (s : State) (d : Byte), s.PortOpen → s.Publishing →
    s.cfg.rxPreempts = false ∧
    (∃ t, exec (.rxClear d) s = .next t ∧ t.box = { byte := s.sampled, ready := true } ∧
      t.rsp = 0#9) ∧
    (∃ t, exec (.rxTake d) s = .next t ∧ t.box = { byte := s.sampled, ready := true } ∧
      t.rsp = ((if s.box.ready then 0x100#9 else 0x000#9) ||| s.box.byte.setWidth 9))

/-- 20_memory R79: clearing twice is idempotent, and a second `RX_TAKE` with no publication between
answers flag 0. -/
def Obligations.ClearIsIdempotentAndTakeIsNot : Prop :=
  ∀ (s : State) (d d' : Byte), s.PortOpen → ¬ s.Publishing →
    (∃ t, exec (.rxClear d) s = .next t ∧ t.box.ready = false ∧
      (t.PortOpen → ¬ t.Publishing → ∃ u, exec (.rxClear d') t = .next u ∧ u.box = t.box ∧
        u.rsp = 0#9)) ∧
    (∃ t, exec (.rxTake d) s = .next t ∧ rspFlag t.rsp = s.box.ready ∧
      (t.PortOpen → ¬ t.Publishing → ∃ u, exec (.rxTake d') t = .next u ∧ rspFlag u.rsp = false ∧
        u.box = t.box))

/-! ### The receiver, tick by tick -/

/-- 41_receiver R128 (with R125, R126): an edge or a pending latch starts a reception, in whatever the
mailbox, the transmitter and the host are doing. -/
def Obligations.EdgeStartsAReception : Prop :=
  ∀ s : State, s.rstNow = false → s.rx.active = false → s.Pending →
    ∃ t, step s = .next t ∧ t.rx.active = true ∧ t.rx.timer = 3 * s.cfg.bitPeriod / 2 ∧
      t.rx.cnt = 8#4 ∧ t.rx.edgePending = true ∧ t.rx.prev = s.lineNow ∧
      t.rx.acc = s.rx.acc ∧ t.rx.c = s.rx.c ∧ t.box.byte = s.box.byte

/-- 41_receiver R130: with the receiver idle and nothing pending, nothing of it is written but
`rx_prev`. -/
def Obligations.IdleReceiverOnlyRemembersTheLine : Prop :=
  ∀ s : State, s.rstNow = false → s.rx.active = false → ¬ s.Pending →
    ∃ t, step s = .next t ∧ t.rx = { s.rx with prev := s.lineNow } ∧ t.box.byte = s.box.byte

/-- 41_receiver R129: the receiver's timer counts down by one, the latch is kept or set, and nothing
else of the receiver is written but `rx_prev`. -/
def Obligations.ReceiverCountsDown : Prop :=
  ∀ s : State, s.rstNow = false → s.rx.active = true → 1 < s.rx.timer →
    ∃ t, step s = .next t ∧
      t.rx = { s.rx with prev := s.lineNow, timer := s.rx.timer - 1,
                         edgePending := decide s.Pending } ∧
      t.box.byte = s.box.byte

/-- 41_receiver R131 with more samples to come: the line level enters bit 7 of the accumulator, bit 0
leaves into the carry, and the next sample is one bit period away. -/
def Obligations.SampleRotatesTheLineIn : Prop :=
  ∀ s : State, s.rstNow = false → s.rx.active = true → s.rx.timer ≤ 1 → 1 < s.rx.cnt.toNat →
    ∃ t, step s = .next t ∧ t.rx.active = true ∧ t.rx.cnt.toNat = s.rx.cnt.toNat - 1 ∧
      t.rx.timer = s.cfg.bitPeriod ∧ t.rx.edgePending = decide s.Pending ∧ t.rx.prev = s.lineNow ∧
      t.rx.acc.getLsbD 7 = s.lineNow ∧
      (∀ k : Nat, k < 7 → t.rx.acc.getLsbD k = s.rx.acc.getLsbD (k + 1)) ∧
      t.rx.c = s.rx.acc.getLsbD 0 ∧ t.box.byte = s.box.byte

/-- 41_receiver R134, R135: the last sample publishes the whole byte and sets the flag in the same tick,
whatever the flag was and whatever the host does; the receiver goes idle and is re-armed, and an
edge of this very tick is dropped. -/
def Obligations.LastSamplePublishesAndRearms : Prop :=
  ∀ s : State, s.rstNow = false → s.rx.active = true → s.rx.timer ≤ 1 → s.rx.cnt.toNat ≤ 1 →
    ∃ t, step s = .next t ∧ t.box.ready = true ∧ t.box.byte = t.rx.acc ∧
      t.rx.acc.getLsbD 7 = s.lineNow ∧
      (∀ k : Nat, k < 7 → t.rx.acc.getLsbD k = s.rx.acc.getLsbD (k + 1)) ∧
      t.rx.c = s.rx.acc.getLsbD 0 ∧ t.rx.active = false ∧ t.rx.cnt = 0#4 ∧ t.rx.timer = 0 ∧
      t.rx.edgePending = false ∧ t.rx.prev = s.lineNow

/-! ### The transmitter, tick by tick -/

/-- 42_transmitter R152: in an un-stalled tick the transmitter's timer counts down by one and nothing
else of it is written. -/
def Obligations.TransmitterCountsDown : Prop :=
  ∀ s : State, s.rstNow = false → ¬ s.Stalled → s.tx.active = true → 1 < s.tx.timer →
    ∃ t, step s = .next t ∧ t.tx = { s.tx with timer := s.tx.timer - 1 }

/-- 42_transmitter R153: prime and rotate. -/
def Obligations.TransmitStepPrimesAndRotates : Prop :=
  ∀ s : State, s.rstNow = false → ¬ s.Stalled → s.tx.active = true → s.tx.timer ≤ 1 →
    0 < s.tx.cnt.toNat →
    ∃ t, step s = .next t ∧ t.tx.sr.getLsbD 7 = true ∧
      (∀ k : Nat, k < 7 → t.tx.sr.getLsbD k = s.tx.sr.getLsbD (k + 1)) ∧
      t.tx.c = s.tx.sr.getLsbD 0 ∧ t.tx.line = s.tx.sr.getLsbD 0 ∧
      t.tx.cnt.toNat = s.tx.cnt.toNat - 1 ∧ t.tx.timer = s.cfg.bitPeriod ∧ t.tx.active = true

/-- 42_transmitter R155: the frame ends one bit period after the last step; the line keeps its level. -/
def Obligations.FrameEndFreesTheTransmitter : Prop :=
  ∀ s : State, s.rstNow = false → ¬ s.Stalled → s.tx.active = true → s.tx.timer ≤ 1 →
    s.tx.cnt = 0#4 →
    ∃ t, step s = .next t ∧ t.tx = { s.tx with active := false, timer := 0 } ∧ t.accepted = false

/-- 42_transmitter R160: an idle transmitter changes by an accepted `TX_SEND` only. -/
def Obligations.IdleTransmitterWaitsForTxSend : Prop :=
  ∀ s : State, s.rstNow = false → s.tx.active = false →
    ∃ t, step s = .next t ∧ (s.Stalled ∨ s.sendPresented = none → t.tx = s.tx) ∧
      (¬ s.Stalled → ∀ d, s.sendPresented = some d → t.tx.active = true ∧ t.tx.sr = d ∧
        t.tx.line = false)

/-- 60_exceptions R207: in a stalled tick no field of the transmitter is written, the port is closed,
and the receiver runs as in any tick; without `RX_PREEMPTS` no tick is stalled. -/
def Obligations.StallFreezesTheMainContext : Prop :=
  (∀ s : State, s.rstNow = false → s.cfg.rxPreempts = true → s.rx.active = true →
    ∃ t, step s = .next t ∧ s.stall = true ∧ t.tx = s.tx ∧ s.outputs.cmdReady = false ∧
      t.accepted = false ∧ t.rsp = 0#9 ∧ ReceiverMoves s t) ∧
  (∀ s : State, s.cfg.rxPreempts = false → s.stall = false)

/-! ### Invariants and rules of the whole machine -/

/-- The invariant of 10_state R54 holds right after reset. -/
def Obligations.ResetMeetsTheInvariant : Prop := State.reset.Inv

/-- 10_state R54, items 1 to 5, with the primed ones of 42_transmitter R154 that make them inductive:
every step from a state that meets the invariant gives one that does, and so does every
instruction's tick. -/
def Obligations.EveryTickKeepsTheInvariant : Prop :=
  (∀ s t : State, s.Inv → step s = .next t → t.Inv) ∧
  (∀ (i : Instr) (s t : State), s.Inv → exec i s = .next t → t.Inv)

/-- 10_state R54, item 6: if the flag is set, a publication has happened since reset, and the byte is the
published one. -/
def Obligations.SetFlagMeansAPublishedByte : Prop :=
  ∀ (s t : State) (n : Nat), s.box.ready = false → Reaches n s t → t.box.ready = true →
    ∃ (k : Nat) (u : State), k < n ∧ Reaches k s u ∧ u.rstNow = false ∧ u.Publishing ∧
      t.box.byte = u.sampled ∧
      ∀ (j : Nat) (v : State), k < j → j < n → Reaches j s v → v.rstNow = false

/-- 10_state R36: a position changes by exactly one of start, count down, step and end, and by no other;
the transmitter's does not move in a stalled tick. -/
def Obligations.PositionsChangeByOneOfFourMoves : Prop :=
  ∀ s : State, s.rstNow = false → ∃ t, step s = .next t ∧
    ((s.rx.active = false ∧ t.rx.active = false ∧ t.rx.cnt = s.rx.cnt ∧ t.rx.timer = s.rx.timer) ∨
     (s.rx.active = false ∧ t.rx.active = true ∧ t.rx.cnt = 8#4 ∧ t.rx.timer = startDelay s.cfg) ∨
     (s.rx.active = true ∧ 1 < s.rx.timer ∧ t.rx.active = true ∧ t.rx.cnt = s.rx.cnt ∧
        t.rx.timer = s.rx.timer - 1) ∨
     (s.rx.active = true ∧ s.rx.timer ≤ 1 ∧ 1 < s.rx.cnt.toNat ∧ t.rx.active = true ∧
        t.rx.cnt = s.rx.cnt - 1#4 ∧ t.rx.timer = s.cfg.bitPeriod) ∨
     (s.rx.active = true ∧ s.rx.timer ≤ 1 ∧ s.rx.cnt.toNat ≤ 1 ∧ t.rx.active = false ∧
        t.rx.cnt = 0#4 ∧ t.rx.timer = 0)) ∧
    (((s.tx.active = false ∨ s.Stalled) ∧ t.tx.active = s.tx.active ∧ t.tx.cnt = s.tx.cnt ∧
        t.tx.timer = s.tx.timer) ∨
     (¬ s.Stalled ∧ s.tx.active = false ∧ t.tx.active = true ∧ t.tx.cnt = 9#4 ∧
        t.tx.timer = s.cfg.bitPeriod) ∨
     (¬ s.Stalled ∧ s.tx.active = true ∧ 1 < s.tx.timer ∧ t.tx.active = true ∧
        t.tx.cnt = s.tx.cnt ∧ t.tx.timer = s.tx.timer - 1) ∨
     (¬ s.Stalled ∧ s.tx.active = true ∧ s.tx.timer ≤ 1 ∧ 0 < s.tx.cnt.toNat ∧
        t.tx.active = true ∧ t.tx.cnt = s.tx.cnt - 1#4 ∧ t.tx.timer = s.cfg.bitPeriod) ∨
     (¬ s.Stalled ∧ s.tx.active = true ∧ s.tx.timer ≤ 1 ∧ s.tx.cnt = 0#4 ∧
        t.tx.active = false ∧ t.tx.cnt = 0#4 ∧ t.tx.timer = 0))

/-- 45_tick_step R193: the receiver depends on its own fields and the line only; the flag also on an
accepted clear; the transmitter on its own fields, an accepted `TX_SEND` and `rx_active` through the
stall; acceptance on `tx_active` and the stall. -/
def Obligations.ContextsDependOnlyOnWhatTheyOwn : Prop :=
  ∀ s s' : State, s.rstNow = false → s'.rstNow = false → s.cfg.bitPeriod = s'.cfg.bitPeriod →
    ∃ t t', step s = .next t ∧ step s' = .next t' ∧
      (s.rx = s'.rx → s.lineNow = s'.lineNow →
        t.rx = t'.rx ∧ (s.box.byte = s'.box.byte → t.box.byte = t'.box.byte) ∧
        (s.box.ready = s'.box.ready →
          (s.outputs.cmdReady = true ∧ s.ClearPresented ↔
            s'.outputs.cmdReady = true ∧ s'.ClearPresented) →
          t.box.ready = t'.box.ready)) ∧
      (s.tx = s'.tx → s.stall = s'.stall → s.sendPresented = s'.sendPresented → t.tx = t'.tx) ∧
      (s.tx.active = s'.tx.active → s.stall = s'.stall →
        s.host.presents.isSome = s'.host.presents.isSome → t.accepted = t'.accepted)

/-- 10_state R31, R39: `rx_byte` changes by a publication only; the flag is set by a publication only and
cleared by an accepted `RX_CLEAR` or `RX_TAKE` only, and a publication in the same tick leaves it
set. -/
def Obligations.MailboxChangesByPublicationAndClearOnly : Prop :=
  ∀ s : State, s.rstNow = false → ∃ t, step s = .next t ∧
    (s.Publishing → t.box = { byte := s.sampled, ready := true }) ∧
    (¬ s.Publishing → t.box.byte = s.box.byte) ∧
    (¬ s.Publishing → t.accepted = true → s.ClearPresented → t.box.ready = false) ∧
    (¬ s.Publishing → ¬ (t.accepted = true ∧ s.ClearPresented) → t.box.ready = s.box.ready)

/-! ### Whole receptions -/

/-- 20_memory R73 and 41_receiver R132, R133, R134: a reception that starts in this tick reads the line
exactly at the eight sample ticks, whatever the host, the transmitter and the line do otherwise, and
publishes them least significant bit first; the carry ends as bit 7 of the old accumulator. -/
def Obligations.ReceptionPublishesTheEightSamples : Prop :=
  ∀ s : State, s.cfg.WF → s.rx.active = false → s.Pending →
    s.noResetFor (receptionTicks s.cfg + 1) →
    ∃ t, Reaches (receptionTicks s.cfg + 1) s t ∧ t.box.ready = true ∧
      (∀ k : Nat, k < 8 →
        t.box.byte.getLsbD k = s.lineAt (3 * s.cfg.bitPeriod / 2 + k * s.cfg.bitPeriod)) ∧
      t.rx.active = false ∧ t.rx.edgePending = false ∧ t.rx.c = s.rx.acc.getLsbD 7

/-- 41_receiver R143: `rx_busy` from the tick after detection up to and including the publication tick,
with the old byte standing until then. -/
def Obligations.ReceptionIsBusyForItsFixedLength : Prop :=
  ∀ s : State, s.cfg.WF → s.rx.active = false → s.Pending →
    s.noResetFor (receptionTicks s.cfg + 1) →
    (∀ j : Nat, 1 ≤ j → j ≤ 3 * s.cfg.bitPeriod / 2 + 7 * s.cfg.bitPeriod →
      ∃ u, Reaches j s u ∧ u.outputs.rxBusy = true ∧ u.outputs.rxByte = s.box.byte ∧
        (u.Publishing ↔ j = 3 * s.cfg.bitPeriod / 2 + 7 * s.cfg.bitPeriod)) ∧
    ∃ t, Reaches (3 * s.cfg.bitPeriod / 2 + 7 * s.cfg.bitPeriod + 1) s t ∧
      t.outputs.rxBusy = false ∧ t.outputs.rxReady = true

/-- 41_receiver R144: a well-formed frame of `b` that begins in this tick, with the line at 1 in the
tick before and the receiver idle, is received as `b`. That the frame begins by the row `FRAME`, one
tick with a silent host, is the model's choice (log entry 5). -/
def Obligations.WellFormedFrameIsReceived : Prop :=
  ∀ (s : State) (b : Byte), s.cfg.WF → s.rx.active = false → s.rx.prev = true →
    s.noResetFor (receptionTicks s.cfg + 1) →
    ∃ t u, exec (.frame b) s = .next t ∧ t.rx.active = true ∧ Reaches (receptionTicks s.cfg) t u ∧
      u.box = { byte := b, ready := true } ∧ u.rx.active = false

/-- 60_exceptions R208, R209, R211: with `RX_PREEMPTS` the port is closed and the transmitter frozen
from the tick after detection to the publication tick, and both go on as they were from the tick
after it. -/
def Obligations.ReceptionFreezesTheTransmitterForItsLength : Prop :=
  ∀ s : State, s.cfg.WF → s.cfg.rxPreempts = true → s.rx.active = false → s.Pending →
    s.noResetFor (receptionTicks s.cfg + 1) →
    ∃ e, Reaches 1 s e ∧
      (∀ j : Nat, 1 ≤ j → j ≤ receptionTicks s.cfg →
        ∃ u, Reaches j s u ∧ u.tx = e.tx ∧ u.outputs.cmdReady = false) ∧
      ∃ t, Reaches (receptionTicks s.cfg + 1) s t ∧ t.tx = e.tx ∧ t.stall = false ∧
        (t.tx.active = false → t.outputs.cmdReady = true)

/-- 41_receiver R146: a one-tick glitch is received as `0xFF`; a break is received as `0x00` once, and
no reception follows until the line falls again. -/
def Obligations.GlitchAndBreakAreReceivedAsBytes : Prop :=
  ∀ s : State, s.cfg.WF → s.rx.active = false → s.rx.prev = true → s.lineAt 0 = false →
    s.noResetFor (receptionTicks s.cfg + 1) →
    ((∀ k : Nat, k < 8 → s.lineAt (startDelay s.cfg + k * s.cfg.bitPeriod) = true) →
      ∃ t, Reaches (receptionTicks s.cfg + 1) s t ∧ t.box = { byte := 0xFF#8, ready := true }) ∧
    ((∀ j : Nat, j ≤ receptionTicks s.cfg → s.lineAt j = false) →
      (∃ t, Reaches (receptionTicks s.cfg + 1) s t ∧ t.box = { byte := 0x00#8, ready := true }) ∧
      ∀ n : Nat, receptionTicks s.cfg < n → s.noResetFor n →
        (∀ j : Nat, receptionTicks s.cfg < j → j < n →
          ¬ (s.lineAt (j - 1) = true ∧ s.lineAt j = false)) →
        ∃ u, Reaches n s u ∧ u.rx.active = false ∧ u.box.byte = 0x00#8)

/-- 20_memory R81: at the default bit period a peer's frames are received right for every byte exactly
when its bit period is 99 to 110 ticks. -/
def Obligations.PeerPeriodMustLieInTheEye : Prop :=
  ∀ (preempts : Bool) (p : Nat), 0 < p →
    ((99 ≤ p ∧ p ≤ 110) ↔
      ∀ b : Byte, ∃ t, t.box.byte = b ∧
        Reaches 885
          { State.reset with cfg := { bitPeriod := 104, rxPreempts := preempts },
                             rxIn := stimulusLevels 104 [.frame b 0 (some p)] 885 } t)

/-! ### Whole transmissions -/

/-- 42_transmitter R156 (with R154): with no stall, an accepted `TX_SEND` puts the ten slots of the frame
on the line, `BIT_PERIOD` ticks each, holds the port closed meanwhile, and leaves the transmitter
idle with the line at 1 after ten bit periods. -/
def Obligations.TransmissionIsTheFrameWave : Prop :=
  ∀ (s : State) (b : Byte), s.cfg.WF → s.PortOpen →
    ∃ t, exec (.txSend b) s = .next t ∧
      (t.noResetFor (10 * s.cfg.bitPeriod) →
        (∀ (j : Nat) (u : State), j < 10 * s.cfg.bitPeriod → Reaches j t u → ¬ u.Stalled) →
        (∀ i j : Nat, i < 10 → j < s.cfg.bitPeriod →
          ∃ u, Reaches (i * s.cfg.bitPeriod + j) t u ∧
            u.outputs.txLine = (if i = 0 then false else if i = 9 then true else b.getLsbD (i - 1)) ∧
            u.outputs.txBusy = true ∧ u.outputs.cmdReady = false) ∧
        ∃ u, Reaches (10 * s.cfg.bitPeriod) t u ∧
          u.tx = { active := false, timer := 0, cnt := 0#4, sr := 0xFF#8, c := true, line := true } ∧
          (¬ u.Stalled → u.outputs.cmdReady = true))

/-- 42_transmitter R162: with `RX_PREEMPTS = false` a block wired to itself receives the byte it sends,
from the tick after the acceptance on. -/
def Obligations.SelfWiredBlockReceivesWhatItSends : Prop :=
  ∀ (s : State) (b : Byte), s.cfg.WF → s.cfg.rxPreempts = false → s.PortOpen →
    s.rx.active = false → s.rx.edgePending = false → s.tx.line = true →
    s.sendPresented = some b → s.noResetFor (receptionTicks s.cfg + 2) →
    ∃ t, loopRun (receptionTicks s.cfg + 2) s = .next t ∧ t.box = { byte := b, ready := true }

/-- 70_reset_and_hazards R246: with `RX_PREEMPTS` a block wired to itself publishes `0x00` whatever byte
it sends, because its own start bit's fall stalls its transmitter with the line at 0 from the second
tick of the start slot on. -/
def Obligations.SelfWiredPreemptingBlockReceivesZero : Prop :=
  ∀ (s : State) (b : Byte), s.cfg.WF → s.cfg.rxPreempts = true → s.PortOpen →
    s.rx.active = false → s.rx.edgePending = false → s.tx.line = true →
    s.sendPresented = some b → s.noResetFor (receptionTicks s.cfg + 2) →
    ∃ t, loopRun (receptionTicks s.cfg + 2) s = .next t ∧ t.box = { byte := 0x00#8, ready := true } ∧
      t.tx = { active := true, timer := s.cfg.bitPeriod - 1, cnt := 9#4, sr := b, c := false,
               line := false }

/-- The source's end-to-end property (00_scope R22; 42_transmitter R162; 10_state R53): for every byte,
the wave one block sends, fed to another with the same bit period, is received as that byte, for
both values of `RX_PREEMPTS` on either side. The sender must not be stalled while it sends: either it
does not preempt, and its own line and receiver do not matter, or its receiver is idle and its own
line stays at 1. -/
def Obligations.TwoBlocksRoundTripEveryByte : Prop :=
  ∀ (a c : State) (b : Byte), a.cfg.WF → c.cfg.bitPeriod = a.cfg.bitPeriod → a.PortOpen →
    a.sendPresented = some b → a.tx.line = true →
    (a.cfg.rxPreempts = false ∨
      (a.rx.active = false ∧ a.rx.edgePending = false ∧
        ∀ j : Nat, j < receptionTicks a.cfg + 2 → a.lineAt j = true)) →
    c.rx.active = false → c.rx.edgePending = false →
    a.noResetFor (receptionTicks a.cfg + 2) → c.noResetFor (receptionTicks a.cfg + 2) →
    ∃ a' c', linkRun (receptionTicks a.cfg + 2) a c = some (a', c') ∧
      c'.box = { byte := b, ready := true }

/-! ### The host's side -/

/-- 30_encoding R103, R104: the host keeps presenting a command until it is accepted, binds the response,
and then goes on; a poll goes on when the response has flag 1; an idle or offered entry lasts one
tick (the last two are the model's general host, log entries 1 and 8). -/
def Obligations.HostPresentsUntilAccepted : Prop :=
  ∀ (s : State) (rest : List HostOp), ∃ t, step s = .next t ∧
    (∀ (w : CmdWord) (bind : Option Nat), s.host.ops = .issue w bind :: rest →
      (t.accepted = false → t.host = s.host) ∧
      (t.accepted = true → t.host.ops = rest ∧
        (bind = none → t.host.vars = s.host.vars) ∧
        ∀ name, bind = some name → t.host.vars.lookup name = some t.rsp)) ∧
    (s.host.ops = .poll :: rest →
      (t.accepted = true → s.box.ready = true → t.host = { s.host with ops := rest }) ∧
      (t.accepted = false ∨ s.box.ready = false → t.host = s.host)) ∧
    (∀ name, s.host.ops = .sendVar name :: rest →
      (t.accepted = false → t.host = s.host) ∧
      (t.accepted = true → t.host = { s.host with ops := rest })) ∧
    (s.host.ops = .quiet :: rest ∨ (∃ w, s.host.ops = .offer w :: rest) →
      t.host = { s.host with ops := rest })

/-- 30_encoding R103: the expansions of the pseudo-statements. -/
def Obligations.PseudoStatementsExpand : Prop :=
  ∀ (m : FmtNeg128) (n : Nat) (v : Option Nat) (c : Byte) (cs : List Byte),
    expandStmt m (.idle n) = some (List.replicate n .quiet) ∧
    expandStmt m (.wait n) = some (List.replicate n (.issue 0x000#11 none)) ∧
    expandStmt m .poll = some [.poll] ∧
    expandStmt m (.getc v) = some [.poll, .issue 0x300#11 v, .issue 0x400#11 none] ∧
    expandStmt m (.putc c) = some [.issue (0x100#11 ||| c.setWidth 11) none] ∧
    expandStmt m (.puts cs) = some (cs.map fun x => .issue (0x100#11 ||| x.setWidth 11) none) ∧
    expandStmt m (.printf cs c) =
      (formatTemplate m c cs).map fun xs => xs.map fun x => .issue (0x100#11 ||| x.setWidth 11) none

/-- 30_encoding R105: the stimulus: 1 where nothing drives; a frame's slots at their ticks; `LOW` with
both ends; a later statement overrides an earlier one. -/
def Obligations.StimulusDrivesTheLine : Prop :=
  ∀ (bp t : Nat) (stimulus : List LineStmt) (b : Byte) (start p t1 t2 : Nat),
    stimulusLevel bp [] t = true ∧
    (∀ i j : Nat, i < 10 → j < p →
      stimulusLevel bp (stimulus ++ [.frame b start (some p)]) (start + i * p + j) =
        (frameWord b).getLsbD i) ∧
    (t < start ∨ start + 10 * p ≤ t →
      stimulusLevel bp (stimulus ++ [.frame b start (some p)]) t = stimulusLevel bp stimulus t) ∧
    stimulusLevel bp (stimulus ++ [.frame b start none]) t =
      stimulusLevel bp (stimulus ++ [.frame b start (some bp)]) t ∧
    stimulusLevel bp (stimulus ++ [.low t1 t2]) t =
      (if t1 ≤ t ∧ t ≤ t2 then false else stimulusLevel bp stimulus t)

/-- 43_formatter_collaborators R168, R167, R169 (outside the hardware, log entry 13): `%u` is always the
three digits of the value, each the code `0x30` plus the digit; `%d` is a sign (minus `0x2D`, space
`0x20`) and the three digits of the magnitude, open at 128; `%b` is the eight bits, most significant
first. -/
def Obligations.FormatterRendersNumbers : Prop :=
  ∀ (v : Byte) (m : FmtNeg128),
    (∃ h t o : Nat, h < 10 ∧ t < 10 ∧ o < 10 ∧ 100 * h + 10 * t + o = v.toNat ∧
      formatUnsigned v.toNat =
        [BitVec.ofNat 8 (0x30 + h), BitVec.ofNat 8 (0x30 + t), BitVec.ofNat 8 (0x30 + o)]) ∧
    (v.toNat < 128 → formatSigned m v = 0x20#8 :: formatUnsigned v.toNat) ∧
    (128 < v.toNat → formatSigned m v = 0x2D#8 :: formatUnsigned (256 - v.toNat)) ∧
    formatSigned .wrap 0x80#8 = [0x2D#8, 0x31#8, 0x32#8, 0x38#8] ∧
    formatSigned .saturate 0x80#8 = [0x2D#8, 0x31#8, 0x32#8, 0x37#8] ∧
    (formatBinary v).length = 8 ∧
    (∀ i : Nat, i < 8 →
      (formatBinary v)[i]? = some (if v.getLsbD (7 - i) then 0x31#8 else 0x30#8))

/-- 43_formatter_collaborators R165 to R174 (outside the hardware, log entry 13): what a template sends,
case by case over its first characters. The scan ends at the end of the list or at the first null; a
character not after a `%` is sent as it stands; after a `%`, the letters `d`, `u` and `b` send the
renderings that `FormatterRendersNumbers` states, `c` the value, `%` a `%`, any other character `!`,
all with the same value; and a `%` that meets the terminator refuses the template, which is what
`templateWf` checks. -/
def Obligations.TemplateScanFollowsTheDirectives : Prop :=
  ∀ (m : FmtNeg128) (v : Byte),
    formatTemplate m v [] = some [] ∧
    formatTemplate m v [0x25#8] = none ∧
    ∀ cs : List Byte,
      formatTemplate m v (0x00#8 :: cs) = some [] ∧
      (∀ c : Byte, c ≠ 0x00#8 → c ≠ 0x25#8 →
        formatTemplate m v (c :: cs) = (formatTemplate m v cs).map (c :: ·)) ∧
      formatTemplate m v (0x25#8 :: 0x00#8 :: cs) = none ∧
      formatTemplate m v (0x25#8 :: 0x64#8 :: cs) =
        (formatTemplate m v cs).map (formatSigned m v ++ ·) ∧
      formatTemplate m v (0x25#8 :: 0x75#8 :: cs) =
        (formatTemplate m v cs).map (formatUnsigned v.toNat ++ ·) ∧
      formatTemplate m v (0x25#8 :: 0x62#8 :: cs) =
        (formatTemplate m v cs).map (formatBinary v ++ ·) ∧
      formatTemplate m v (0x25#8 :: 0x63#8 :: cs) = (formatTemplate m v cs).map (v :: ·) ∧
      formatTemplate m v (0x25#8 :: 0x25#8 :: cs) = (formatTemplate m v cs).map (0x25#8 :: ·) ∧
      (∀ d : Byte, d ≠ 0x00#8 → d ≠ 0x64#8 → d ≠ 0x75#8 → d ≠ 0x62#8 → d ≠ 0x63#8 → d ≠ 0x25#8 →
        formatTemplate m v (0x25#8 :: d :: cs) = (formatTemplate m v cs).map (0x21#8 :: ·)) ∧
      (formatTemplate m v cs).isSome = templateWf cs
end

