-- ==== Sys2Proof/Laws/Encoding.lean ====
section
/-! SUPPORT. The small lemmas of the encodings: fields of a command word, bits of a frame word, slots of
a frame in time. -/

namespace Sys2Proof.Machine

@[simp] theorem opField_commandWord (o : BitVec 3) (d : Byte) : opField (commandWord o d) = o := by
  ext k hk
  simp only [opField, commandWord, BitVec.getElem_extractLsb', BitVec.getLsbD_append]
  simp [BitVec.getLsbD_eq_getElem hk]

@[simp] theorem dataField_commandWord (o : BitVec 3) (d : Byte) : dataField (commandWord o d) = d := by
  ext k hk
  simp only [dataField, commandWord, BitVec.getElem_extractLsb', BitVec.getLsbD_append]
  simp [hk]

/-- A command word is its two fields. -/
theorem commandWord_fields (w : CmdWord) : commandWord (opField w) (dataField w) = w := by
  apply BitVec.eq_of_getLsbD_eq
  intro k hk
  rw [commandWord, BitVec.getLsbD_append]
  split
  · simp only [dataField, BitVec.getLsbD_extractLsb']; simp [*]
  · simp only [opField, BitVec.getLsbD_extractLsb']
    rw [show 8 + (k - 8) = k by omega]
    simp; omega

theorem dataField_eq_setWidth (w : CmdWord) : dataField w = w.setWidth 8 := by
  ext k hk; simp [dataField]

/-- The opcode bits in place are the opcode field over a zero operand. -/
theorem opBits_eq (w : CmdWord) : opBits w = commandWord (opField w) 0#8 := by
  have hmask : ∀ k : Fin 11, (0x700#11).getLsbD k = decide (8 ≤ k.val) := by decide
  apply BitVec.eq_of_getLsbD_eq
  intro k hk
  have hm : (0x700#11).getLsbD k = decide (8 ≤ k) := hmask ⟨k, hk⟩
  rw [commandWord, BitVec.getLsbD_append, opBits, BitVec.getLsbD_and, hm]
  split
  · simp; intro; omega
  · rw [opField, BitVec.getLsbD_extractLsb', show 8 + (k - 8) = k by omega]
    rw [decide_eq_true (show 8 ≤ k by omega), decide_eq_true (show k - 8 < 3 by omega)]
    simp

/-- The opcode bits take one of the eight values of the map (30_encoding R94). -/
theorem opBits_cases (w : CmdWord) :
    opBits w = 0x000#11 ∨ opBits w = 0x100#11 ∨ opBits w = 0x200#11 ∨ opBits w = 0x300#11 ∨
    opBits w = 0x400#11 ∨ opBits w = 0x500#11 ∨ opBits w = 0x600#11 ∨ opBits w = 0x700#11 := by
  rw [opBits_eq]
  generalize opField w = o
  revert o; decide

/-- Bit `i` of the frame word of a byte, slot by slot (30_encoding R90). -/
theorem frameWord_getLsbD (b : Byte) (i : Nat) (hi : i < 10) :
    (frameWord b).getLsbD i = (if i = 0 then false else if i = 9 then true else b.getLsbD (i - 1)) := by
  have h : ∀ j : Fin 10, (frameWord b).getLsbD j =
      (if j.val = 0 then false else if j.val = 9 then true else b.getLsbD (j - 1)) := by
    revert b; decide
  exact h ⟨i, hi⟩

/-- A list of runs of one length, entry by entry. -/
theorem flatMap_replicate_getElem? {α β : Type} (f : α → β) (p j : Nat) (hj : j < p) (xs : List α)
    (i : Nat) : (xs.flatMap fun x => List.replicate p (f x))[i * p + j]? = xs[i]?.map f := by
  induction xs generalizing i with
  | nil => simp
  | cons x xs ih =>
    rw [List.flatMap_cons]
    cases i with
    | zero => simp [List.getElem?_append, hj]
    | succ i =>
      rw [List.getElem?_append_right (by simp [Nat.succ_mul]; omega)]
      rw [List.length_replicate, show (i + 1) * p + j - p = i * p + j by rw [Nat.succ_mul]; omega, ih]
      rfl

/-- The level of slot `i` in its `j`-th tick. -/
theorem slotLevels_getElem? (p i j : Nat) (F : FrameWord) (hi : i < 10) (hj : j < p) :
    (slotLevels p F)[i * p + j]? = some (F.getLsbD i) := by
  rw [slotLevels, flatMap_replicate_getElem? _ p j hj]
  simp [hi]

@[simp] theorem slotLevels_length (p : Nat) (F : FrameWord) : (slotLevels p F).length = 10 * p := by
  simp only [slotLevels, List.length_flatMap, List.length_replicate]
  simp
  omega

end Sys2Proof.Machine
end

