-- ==== Sys2Proof/Laws/State.lean ====
section
/-! SUPPORT. One lemma per field and update of State: the updates a tick is made of. -/

namespace Sys2Proof.Machine

section
variable (s pre : State) (g : Option Request) (F : FrameWord) (l : Level) (ops : List HostOp)

/-! ### A tick without reset -/

@[simp] theorem runTick_cfg : (s.runTick g).cfg = s.cfg := rfl
@[simp] theorem runTick_rx : (s.runTick g).rx = (receiverTick s.cfg s.lineNow s.rx).1 := rfl
@[simp] theorem runTick_box :
    (s.runTick g).box =
      mailboxTick (receiverTick s.cfg s.lineNow s.rx).2 (g.getD quietRequest).clear s.box := rfl
@[simp] theorem runTick_tx :
    (s.runTick g).tx =
      if s.stall then s.tx else transmitterTick s.cfg (g.getD quietRequest).send s.tx := rfl
@[simp] theorem runTick_rstIn : (s.runTick g).rstIn = s.rstIn.tail := rfl
@[simp] theorem runTick_rxIn : (s.runTick g).rxIn = s.rxIn.tail := rfl
@[simp] theorem runTick_host : (s.runTick g).host = s.host := rfl
@[simp] theorem runTick_rsp : (s.runTick g).rsp = (g.getD quietRequest).response := rfl
@[simp] theorem runTick_accepted : (s.runTick g).accepted = g.isSome := rfl
@[simp] theorem runTick_freeCtr : (s.runTick g).freeCtr = s.freeCtr := rfl

/-! ### A tick with reset -/

@[simp] theorem resetTick_cfg : s.resetTick.cfg = s.cfg := rfl
@[simp] theorem resetTick_rx_prev : s.resetTick.rx.prev = true := rfl
@[simp] theorem resetTick_rx_edgePending : s.resetTick.rx.edgePending = false := rfl
@[simp] theorem resetTick_rx_active : s.resetTick.rx.active = false := rfl
@[simp] theorem resetTick_rx_timer : s.resetTick.rx.timer = 0 := rfl
@[simp] theorem resetTick_rx_cnt : s.resetTick.rx.cnt = 0#4 := rfl
@[simp] theorem resetTick_box_ready : s.resetTick.box.ready = false := rfl
@[simp] theorem resetTick_tx_active : s.resetTick.tx.active = false := rfl
@[simp] theorem resetTick_tx_timer : s.resetTick.tx.timer = 0 := rfl
@[simp] theorem resetTick_tx_cnt : s.resetTick.tx.cnt = 0#4 := rfl
@[simp] theorem resetTick_tx_c : s.resetTick.tx.c = true := rfl
@[simp] theorem resetTick_tx_line : s.resetTick.tx.line = true := rfl
@[simp] theorem resetTick_rstIn : s.resetTick.rstIn = s.rstIn.tail := rfl
@[simp] theorem resetTick_rxIn : s.resetTick.rxIn = s.rxIn.tail := rfl
@[simp] theorem resetTick_host : s.resetTick.host = s.host := rfl
@[simp] theorem resetTick_rsp : s.resetTick.rsp = 0#9 := rfl
@[simp] theorem resetTick_accepted : s.resetTick.accepted = false := rfl
@[simp] theorem resetTick_freeCtr : s.resetTick.freeCtr = s.freeCtr + 3 := rfl

/-! ### The host moved on -/

@[simp] theorem settleHost_cfg : (settleHost pre s).cfg = s.cfg := rfl
@[simp] theorem settleHost_rx : (settleHost pre s).rx = s.rx := rfl
@[simp] theorem settleHost_box : (settleHost pre s).box = s.box := rfl
@[simp] theorem settleHost_tx : (settleHost pre s).tx = s.tx := rfl
@[simp] theorem settleHost_rstIn : (settleHost pre s).rstIn = s.rstIn := rfl
@[simp] theorem settleHost_rxIn : (settleHost pre s).rxIn = s.rxIn := rfl
@[simp] theorem settleHost_host :
    (settleHost pre s).host = pre.host.advance s.accepted s.rsp := rfl
@[simp] theorem settleHost_rsp : (settleHost pre s).rsp = s.rsp := rfl
@[simp] theorem settleHost_accepted : (settleHost pre s).accepted = s.accepted := rfl
@[simp] theorem settleHost_freeCtr : (settleHost pre s).freeCtr = s.freeCtr := rfl

/-! ### The line driven, a program loaded -/

@[simp] theorem driveWord_cfg : (s.driveWord F).cfg = s.cfg := rfl
@[simp] theorem driveWord_rx : (s.driveWord F).rx = s.rx := rfl
@[simp] theorem driveWord_box : (s.driveWord F).box = s.box := rfl
@[simp] theorem driveWord_tx : (s.driveWord F).tx = s.tx := rfl
@[simp] theorem driveWord_rstIn : (s.driveWord F).rstIn = s.rstIn := rfl
@[simp] theorem driveWord_rxIn :
    (s.driveWord F).rxIn = slotLevels s.cfg.bitPeriod F ++ s.rxIn.drop (frameTicks s.cfg) := rfl
@[simp] theorem driveWord_host : (s.driveWord F).host = s.host := rfl
@[simp] theorem driveWord_freeCtr : (s.driveWord F).freeCtr = s.freeCtr := rfl

@[simp] theorem driveLevel_cfg : (s.driveLevel l).cfg = s.cfg := rfl
@[simp] theorem driveLevel_rx : (s.driveLevel l).rx = s.rx := rfl
@[simp] theorem driveLevel_box : (s.driveLevel l).box = s.box := rfl
@[simp] theorem driveLevel_tx : (s.driveLevel l).tx = s.tx := rfl
@[simp] theorem driveLevel_rstIn : (s.driveLevel l).rstIn = s.rstIn := rfl
@[simp] theorem driveLevel_rxIn : (s.driveLevel l).rxIn = l :: s.rxIn.tail := rfl
@[simp] theorem driveLevel_host : (s.driveLevel l).host = s.host := rfl
@[simp] theorem driveLevel_lineNow : (s.driveLevel l).lineNow = l := rfl
@[simp] theorem driveLevel_rstNow : (s.driveLevel l).rstNow = s.rstNow := rfl

@[simp] theorem loadProgram_cfg : (s.loadProgram ops).cfg = s.cfg := rfl
@[simp] theorem loadProgram_rx : (s.loadProgram ops).rx = s.rx := rfl
@[simp] theorem loadProgram_box : (s.loadProgram ops).box = s.box := rfl
@[simp] theorem loadProgram_tx : (s.loadProgram ops).tx = s.tx := rfl
@[simp] theorem loadProgram_rstIn : (s.loadProgram ops).rstIn = s.rstIn := rfl
@[simp] theorem loadProgram_rxIn : (s.loadProgram ops).rxIn = s.rxIn := rfl
@[simp] theorem loadProgram_ops : (s.loadProgram ops).host.ops = ops := rfl
@[simp] theorem loadProgram_vars : (s.loadProgram ops).host.vars = s.host.vars := rfl

end

end Sys2Proof.Machine
end

