-- ==== Sys2Proof/Laws/Ops.lean ====
section
/-! SUPPORT. One spec lemma per shared operation: everything it can do, case by case, cited in place
of its definition. -/

namespace Sys2Proof.Machine

/-! ### Rotate through carry -/

@[simp] theorem rrc_carry (c : Level) (v : Byte) : (rrc c v).1 = v.getLsbD 0 := rfl

/-- Bit 7 of the rotated value is the carry in; every other bit is the next one up. -/
theorem rrc_getLsbD (c : Level) (v : Byte) (k : Nat) (hk : k < 8) :
    (rrc c v).2.getLsbD k = if k = 7 then c else v.getLsbD (k + 1) := by
  have h : ∀ j : Fin 8, (rrc c v).2.getLsbD j = if j.val = 7 then c else v.getLsbD (j + 1) := by
    revert c v; decide
  exact h ⟨k, hk⟩

/-- The rotation as a shift with the carry in at the top. -/
theorem rrc_value (c : Level) (v : Byte) :
    (rrc c v).2 = (if c then 0x80#8 else 0x00#8) ||| (v >>> 1) := by
  revert c v; decide

/-! ### Responses -/

theorem rspWord_both (f : Bool) (b : Byte) :
    rspWord f b = (if f then 0x100#9 else 0x000#9) ||| b.setWidth 9 := by
  revert f b; decide

theorem rspWord_byte (b : Byte) : rspWord false b = b.setWidth 9 := by
  revert b; decide

theorem rspWord_flag (f : Bool) : rspWord f 0#8 = if f then 0x100#9 else 0x000#9 := by
  revert f; decide

@[simp] theorem rspFlag_rspWord (f : Bool) (b : Byte) : rspFlag (rspWord f b) = f := by
  revert f b; decide

@[simp] theorem rspByte_rspWord (f : Bool) (b : Byte) : rspByte (rspWord f b) = b := by
  revert f b; decide

/-! ### Receiver -/

section
variable {c : Config} {line : Level} {rx : Receiver}

theorem pend_iff : pend rx line = true ↔ rx.edgePending = true ∨ (rx.prev = true ∧ line = false) := by
  simp [pend, fall]

theorem receiverTick_start (ha : rx.active = false) (hp : pend rx line = true) :
    receiverTick c line rx = (rxStart c { rx with prev := line }, none) := by
  simp [receiverTick, ha, hp]

theorem receiverTick_idle (ha : rx.active = false) (hp : pend rx line = false) :
    receiverTick c line rx = ({ rx with prev := line }, none) := by
  simp [receiverTick, ha, hp]

theorem receiverTick_count (ha : rx.active = true) (ht : 1 < rx.timer) :
    receiverTick c line rx = (rxCount (pend rx line) { rx with prev := line }, none) := by
  simp [receiverTick, ha, ht]

theorem receiverTick_sample (ha : rx.active = true) (ht : rx.timer ≤ 1) (hc : 1 < rx.cnt.toNat) :
    receiverTick c line rx =
      (rxContinue c (pend rx line) (rxShift line { rx with prev := line }), none) := by
  have hc' : 1#4 < rx.cnt := by simpa [BitVec.lt_def] using hc
  simp [receiverTick, ha, Nat.not_lt.mpr ht, hc']

theorem receiverTick_publish (ha : rx.active = true) (ht : rx.timer ≤ 1) (hc : rx.cnt.toNat ≤ 1) :
    receiverTick c line rx =
      (rxPublish (rxShift line { rx with prev := line }), some (rrc line rx.acc).2) := by
  have hc' : ¬ 1#4 < rx.cnt := by simpa [BitVec.lt_def] using hc
  simp [receiverTick, ha, Nat.not_lt.mpr ht, hc']

/-- A tick publishes exactly under the condition of `RX_PUBLISH` (41_receiver R134). -/
theorem receiverTick_publishes_iff :
    (receiverTick c line rx).2 = some (rrc line rx.acc).2 ↔
      rx.active = true ∧ rx.timer ≤ 1 ∧ rx.cnt.toNat ≤ 1 := by
  unfold receiverTick
  have hc : 1#4 < rx.cnt ↔ 1 < rx.cnt.toNat := by simp [BitVec.lt_def]
  cases ha : rx.active
  · by_cases hp : pend rx line <;> simp [hp]
  · by_cases ht : 1 < rx.timer
    · simp [ht]
    · by_cases hn : 1#4 < rx.cnt
      · have := hc.mp hn
        simp [ht, hn]; omega
      · have := mt hc.mpr hn
        simp [ht, hn]; omega

/-- A tick that does not publish answers no byte. -/
theorem receiverTick_silent (h : ¬ (rx.active = true ∧ rx.timer ≤ 1 ∧ rx.cnt.toNat ≤ 1)) :
    (receiverTick c line rx).2 = none := by
  unfold receiverTick
  have hc : 1#4 < rx.cnt ↔ 1 < rx.cnt.toNat := by simp [BitVec.lt_def]
  cases ha : rx.active
  · by_cases hp : pend rx line <;> simp [hp]
  · by_cases ht : 1 < rx.timer
    · simp [ht]
    · by_cases hn : 1#4 < rx.cnt
      · simp [ht, hn]
      · exact absurd ⟨ha, by omega, by have := mt hc.mpr hn; omega⟩ h

end

/-! ### Mailbox -/

@[simp] theorem mailboxTick_some (b : Byte) (clear : Bool) (box : Mailbox) :
    mailboxTick (some b) clear box = { byte := b, ready := true } := rfl
@[simp] theorem mailboxTick_hold (box : Mailbox) : mailboxTick none false box = box := rfl
@[simp] theorem mailboxTick_clear (box : Mailbox) :
    mailboxTick none true box = { box with ready := false } := rfl

/-! ### Transmitter -/

section
variable {c : Config} {send : Option Byte} {tx : Transmitter}

theorem transmitterTick_idle (ha : tx.active = false) : transmitterTick c none tx = tx := by
  simp [transmitterTick, ha]

theorem transmitterTick_send {d : Byte} (ha : tx.active = false) :
    transmitterTick c (some d) tx = txStart c d := by
  simp [transmitterTick, ha]

theorem transmitterTick_count (ha : tx.active = true) (ht : 1 < tx.timer) :
    transmitterTick c send tx = txCount tx := by
  simp [transmitterTick, ha, ht]

theorem transmitterTick_step (ha : tx.active = true) (ht : tx.timer ≤ 1) (hc : 0 < tx.cnt.toNat) :
    transmitterTick c send tx = txStep c tx := by
  have hc' : 0#4 < tx.cnt := by simpa [BitVec.lt_def] using hc
  simp [transmitterTick, ha, Nat.not_lt.mpr ht, hc']

theorem transmitterTick_end (ha : tx.active = true) (ht : tx.timer ≤ 1) (hc : tx.cnt = 0#4) :
    transmitterTick c send tx = txEnd tx := by
  simp [transmitterTick, ha, Nat.not_lt.mpr ht, hc]

end

end Sys2Proof.Machine
end

