-- ==== Sys2Proof/Laws/Step.lean ====
section
/-! SUPPORT. What exec, step and a run are, said once. -/

namespace Sys2Proof.Machine

/-- What a command asks for, as one function of the instruction; none for a frame. -/
def requestOf (s : State) : Instr → Option Request
  | .nop _ => some quietRequest
  | .txSend d => some { response := 0#9, send := some d, clear := false }
  | .rxStatus _ => some { response := rspWord s.box.ready 0#8, send := none, clear := false }
  | .rxRead _ => some { response := rspWord false s.box.byte, send := none, clear := false }
  | .rxClear _ => some { response := 0#9, send := none, clear := true }
  | .rxTake _ => some { response := rspWord s.box.ready s.box.byte, send := none, clear := true }
  | .rsv6 _ => some quietRequest
  | .rsv7 _ => some quietRequest
  | .frame _ => none

/-- A command's meaning is the tick in which it is presented. -/
theorem exec_command {i : Instr} (h : i.isCommand = true) (s : State) :
    exec i s = .next (s.tick (requestOf s i)) := by
  cases i <;> first | rfl | simp [Instr.isCommand] at h

/-- A frame's meaning is the silent tick of the state whose line it drives. -/
theorem exec_frame (b : Byte) (s : State) :
    exec (.frame b) s = .next ((s.driveWord (frameWord b)).tick none) := rfl

/-- Every word of the command port decodes to a command (30_encoding R99). -/
theorem decodeCommand_isCommand (w : CmdWord) : (decodeCommand w).isCommand = true := by
  unfold decodeCommand
  split <;> rfl

/-- What the host asks for in this tick. -/
def State.requestNow (s : State) : Option Request :=
  s.host.presents.bind fun w => requestOf s (decodeCommand w)

/-- A step is the tick of what the host presents, and then the host moves on. -/
theorem step_eq (s : State) : step s = .next (settleHost s (s.tick s.requestNow)) := by
  unfold step State.requestNow
  cases h : s.host.presents with
  | none => simp
  | some w => simp [exec_command (decodeCommand_isCommand w), mapNext]

theorem tick_reset {s : State} (h : s.rstNow = true) (r : Option Request) :
    s.tick r = s.resetTick := by simp [State.tick, h]

theorem tick_open {s : State} (h : s.rstNow = false) (hr : s.cmdReady = true) (r : Option Request) :
    s.tick r = s.runTick r := by simp [State.tick, h, hr]

theorem tick_closed {s : State} (h : s.rstNow = false) (hr : s.cmdReady = false)
    (r : Option Request) : s.tick r = s.runTick none := by simp [State.tick, h, hr]

theorem tick_silent {s : State} (h : s.rstNow = false) : s.tick none = s.runTick none := by
  simp [State.tick, h]

/-! ### What any tick leaves alone -/

@[simp] theorem tick_cfg (s : State) (r : Option Request) : (s.tick r).cfg = s.cfg := by
  unfold State.tick; split <;> rfl

@[simp] theorem tick_host (s : State) (r : Option Request) : (s.tick r).host = s.host := by
  unfold State.tick; split <;> rfl

@[simp] theorem tick_rstIn (s : State) (r : Option Request) : (s.tick r).rstIn = s.rstIn.tail := by
  unfold State.tick; split <;> rfl

@[simp] theorem tick_rxIn (s : State) (r : Option Request) : (s.tick r).rxIn = s.rxIn.tail := by
  unfold State.tick; split <;> rfl

/-- An open port means an idle transmitter and no stall (10_state R52). -/
theorem cmdReady_iff (s : State) : s.cmdReady = true ↔ s.tx.active = false ∧ s.stall = false := by
  simp [State.cmdReady]

/-! ### Runs -/

/-- The next state of a step, which always has one. -/
def State.after (s : State) : State := settleHost s (s.tick s.requestNow)

/-- The state after `n` ticks. -/
def State.afterN : Nat → State → State
  | 0, s => s
  | n + 1, s => State.afterN n s.after

/-- A run's first step, when it answers a next state. -/
theorem run_succ_of_next {M : Host.Core} {s t : M.State} {n : Nat} (h : M.step s = .next t) :
    M.run (n + 1) s = M.run n t := by
  rw [Host.Core.run, h]

theorem run_eq_afterN (n : Nat) (s : State) : Sys2Proof.core.run n s = .next (s.afterN n) := by
  induction n generalizing s with
  | zero => rfl
  | succ n ih =>
    have hs : Sys2Proof.core.step s = .next s.after := step_eq s
    exact (run_succ_of_next hs).trans (ih s.after)

theorem reaches_iff (n : Nat) (s t : State) : Reaches n s t ↔ t = s.afterN n := by
  unfold Reaches
  rw [run_eq_afterN]
  constructor
  · intro h; injection h with h; exact h.symm
  · intro h; rw [h]

theorem afterN_add (m n : Nat) (s : State) : s.afterN (m + n) = (s.afterN m).afterN n := by
  induction m generalizing s with
  | zero => simp [State.afterN]
  | succ m ih => rw [Nat.succ_add]; exact ih _

theorem afterN_succ' (n : Nat) (s : State) : s.afterN (n + 1) = (s.afterN n).after := by
  rw [afterN_add]; rfl

@[simp] theorem after_cfg (s : State) : s.after.cfg = s.cfg := by simp [State.after]
@[simp] theorem after_rstIn (s : State) : s.after.rstIn = s.rstIn.tail := by simp [State.after]
@[simp] theorem after_rxIn (s : State) : s.after.rxIn = s.rxIn.tail := by simp [State.after]

@[simp] theorem afterN_cfg (n : Nat) (s : State) : (s.afterN n).cfg = s.cfg := by
  induction n generalizing s with
  | zero => rfl
  | succ n ih => simp [State.afterN, ih]

/-- The inputs `n` ticks on are the schedules less their first `n` entries. -/
theorem afterN_inputs (n : Nat) (s : State) :
    (s.afterN n).rstIn = s.rstIn.drop n ∧ (s.afterN n).rxIn = s.rxIn.drop n := by
  induction n generalizing s with
  | zero => simp [State.afterN]
  | succ n ih =>
    have h := ih s.after
    rw [after_rstIn, after_rxIn] at h
    rw [State.afterN, h.1, h.2]
    simp

theorem afterN_lineNow (n : Nat) (s : State) : (s.afterN n).lineNow = s.lineAt n := by
  simp [State.lineNow, State.lineAt, (afterN_inputs n s).2, List.headD_eq_head?_getD,
    List.getD_eq_getElem?_getD, List.head?_drop]

theorem afterN_rstNow {n m : Nat} {s : State} (h : s.noResetFor m) (hn : n < m) :
    (s.afterN n).rstNow = false := by
  have := h n hn
  simp [State.rstNow, (afterN_inputs n s).1, List.headD_eq_head?_getD, List.head?_drop]
  simpa [List.getD_eq_getElem?_getD] using this

/-! ### The engines in a tick without reset -/

theorem after_rx {s : State} (h : s.rstNow = false) :
    s.after.rx = (receiverTick s.cfg s.lineNow s.rx).1 := by
  unfold State.after
  cases hr : s.cmdReady
  · rw [tick_closed h hr]; rfl
  · rw [tick_open h hr]; rfl

/-- A stalled tick leaves the transmitter (60_exceptions R207). -/
theorem after_tx_stalled {s : State} (h : s.rstNow = false) (hs : s.stall = true) :
    s.after.tx = s.tx := by
  have hr : s.cmdReady = false := by simp [State.cmdReady, hs]
  simp [State.after, tick_closed h hr, hs]

/-- While a frame is being sent no command is accepted, so an un-stalled tick is the transmitter's own
move (42_transmitter R152 to R155). -/
theorem after_tx_busy {s : State} (h : s.rstNow = false) (hs : s.stall = false)
    (ha : s.tx.active = true) : s.after.tx = transmitterTick s.cfg none s.tx := by
  have hr : s.cmdReady = false := by simp [State.cmdReady, ha]
  simp [State.after, tick_closed h hr, hs, quietRequest]

/-- A tick that publishes leaves the new byte and the flag, whatever the host does (41_receiver R134,
R141). -/
theorem after_box_publish {s : State} (h : s.rstNow = false) (hp : s.Publishing) :
    s.after.box = { byte := (rrc s.lineNow s.rx.acc).2, ready := true } := by
  unfold State.after
  have hb := (receiverTick_publishes_iff (c := s.cfg) (line := s.lineNow) (rx := s.rx)).mpr hp
  cases hr : s.cmdReady
  · rw [tick_closed h hr]; simp [hb]
  · rw [tick_open h hr]; simp [hb]

/-- A tick that does not publish leaves the byte (10_state R31). -/
theorem after_byte_silent {s : State} (h : s.rstNow = false) (hp : ¬ s.Publishing) :
    s.after.box.byte = s.box.byte := by
  unfold State.after
  have hb := receiverTick_silent (c := s.cfg) (line := s.lineNow) hp
  have hm : ∀ cl, (mailboxTick none cl s.box).byte = s.box.byte := by intro cl; cases cl <;> rfl
  cases hr : s.cmdReady
  · rw [tick_closed h hr]; simp [hb, hm]
  · rw [tick_open h hr]; simp [hb, hm]

end Sys2Proof.Machine
end

