-- ==== Sys2Proof/Laws/Moves.lean ====
section
/-! SUPPORT. The inversion lemmas of the engines: the operations of Machine/Ops.lean make exactly the
moves that Safety.lean writes from the rules. -/

namespace Sys2Proof.Machine

theorem pend_decide (s : State) : pend s.rx s.lineNow = decide s.Pending := by
  rw [Bool.eq_iff_iff, pend_iff, decide_eq_true_iff]

theorem sampled_eq (s : State) : (rrc s.lineNow s.rx.acc).2 = s.sampled := rrc_value _ _

theorem stall_iff (s : State) : s.stall = true ↔ s.Stalled := by
  simp [State.stall]

theorem not_stalled {s : State} (h : ¬ s.Stalled) : s.stall = false := by
  rw [← stall_iff] at h
  simpa using h

/-- An open port is one whose command runs. -/
theorem PortOpen.ready {s : State} (h : s.PortOpen) : s.cmdReady = true :=
  (cmdReady_iff s).mpr ⟨h.2.1, not_stalled h.2.2⟩

/-- Whatever its receiver is, a state whose receiver is the receiver's tick of `s` makes the moves of the
rules. -/
theorem receiverMoves_of {s t : State} (h : t.rx = (receiverTick s.cfg s.lineNow s.rx).1) :
    ReceiverMoves s t where
  start ha hp := by
    rw [h, receiverTick_start ha (by rw [pend_decide]; simpa using hp)]
    rfl
  idle ha hp := by
    rw [h, receiverTick_idle ha (by rw [pend_decide]; simpa using hp)]
  count ha ht := by
    rw [h, receiverTick_count ha ht, pend_decide]
    rfl
  sample ha ht hc := by
    rw [h, receiverTick_sample ha ht hc, pend_decide, ← sampled_eq]
    simp [rxContinue, rxShift, ha]
  publish hp := by
    rw [h, receiverTick_publish hp.1 hp.2.1 hp.2.2, ← sampled_eq]
    simp [rxPublish, rxShift]

/-- The transmitter of a tick makes the moves of the rules. -/
theorem transmitterMoves_of {s t : State} {send : Option Byte}
    (h : t.tx = if s.stall then s.tx else transmitterTick s.cfg send s.tx) :
    TransmitterMoves send s t where
  stalled hs := by rw [h, if_pos ((stall_iff s).mpr hs)]
  idle hs ha hn := by rw [h, not_stalled hs, hn, transmitterTick_idle ha]; rfl
  start hs ha d hd := by rw [h, not_stalled hs, hd, transmitterTick_send ha]; rfl
  count hs ha ht := by rw [h, not_stalled hs, transmitterTick_count ha ht]; rfl
  step hs ha ht hc := by
    rw [h, not_stalled hs, transmitterTick_step ha ht hc]
    simp [txStep, rrc_value, ha]
  stop hs ha ht hc := by rw [h, not_stalled hs, transmitterTick_end ha ht hc]; rfl

theorem boxAfter_publishing {s : State} (h : s.Publishing) (clears : Bool) :
    s.boxAfter clears = { byte := s.sampled, ready := true } := by
  rw [State.boxAfter, if_pos h]

theorem boxAfter_silent {s : State} (h : ¬ s.Publishing) (clears : Bool) :
    s.boxAfter clears = if clears then { byte := s.box.byte, ready := false } else s.box := by
  rw [State.boxAfter, if_neg h]

/-- The mailbox of a tick is that of the rules. -/
theorem mailboxTick_eq_boxAfter (s : State) (clears : Bool) :
    mailboxTick (receiverTick s.cfg s.lineNow s.rx).2 clears s.box = s.boxAfter clears := by
  unfold State.boxAfter
  by_cases hp : s.Publishing
  · rw [if_pos hp, (receiverTick_publishes_iff (c := s.cfg)).mpr hp, sampled_eq]
    rfl
  · rw [if_neg hp, receiverTick_silent hp]
    cases clears <;> rfl

/-- Everything a tick without reset does, in the terms of the rules. -/
theorem runTick_moves (s : State) (g : Option Request) :
    CommandFrame s (s.runTick g) ∧
    (s.runTick g).box = s.boxAfter (g.getD quietRequest).clear ∧
    TransmitterMoves (g.getD quietRequest).send s (s.runTick g) :=
  ⟨⟨receiverMoves_of rfl, ⟨rfl, rfl, rfl, rfl⟩, rfl⟩, mailboxTick_eq_boxAfter s _,
    transmitterMoves_of rfl⟩

/-! ### A whole step -/

/-- A step without reset makes the receiver's moves, whatever the host does. -/
theorem after_receiverMoves {s : State} (h : s.rstNow = false) : ReceiverMoves s s.after :=
  receiverMoves_of (after_rx h)

/-- The mailbox after a step without reset: a clear counts only if the port is open. -/
theorem after_box {s : State} (h : s.rstNow = false) :
    s.after.box = s.boxAfter (s.cmdReady && (s.requestNow.getD quietRequest).clear) := by
  cases hr : s.cmdReady
  · rw [State.after, tick_closed h hr]
    exact (runTick_moves s none).2.1
  · rw [State.after, tick_open h hr]
    simpa using (runTick_moves s s.requestNow).2.1

/-- The sampled accumulator, bit by bit. -/
theorem sampled_getLsbD (s : State) (k : Nat) (hk : k < 8) :
    s.sampled.getLsbD k = if k = 7 then s.lineNow else s.rx.acc.getLsbD (k + 1) := by
  rw [← sampled_eq, rrc_getLsbD _ _ k hk]

end Sys2Proof.Machine
end

