-- ==== Sys2Proof/Laws/PerInstr.lean ====
section
/-! SUPPORT. Statements for all instructions, one lemma per constructor. -/

namespace Sys2Proof.Laws.RowMatch

/-- The mask and match of an instruction's row (30_encoding R90, R94; spec/opcode_table.json). -/
def row : Instr → Nat × Nat
  | .nop _ => (0x700, 0x000)
  | .txSend _ => (0x700, 0x100)
  | .rxStatus _ => (0x700, 0x200)
  | .rxRead _ => (0x700, 0x300)
  | .rxClear _ => (0x700, 0x400)
  | .rxTake _ => (0x700, 0x500)
  | .rsv6 _ => (0x700, 0x600)
  | .rsv7 _ => (0x700, 0x700)
  | .frame _ => (0x201, 0x200)

/-- The encoded word fits the row's width and matches the row under its mask. -/
def Statement (i : Instr) : Prop :=
  encode i < 2 ^ i.nbits ∧ encode i &&& (row i).1 = (row i).2

theorem nop (d : Byte) : Statement (.nop d) := by unfold Statement; revert d; decide
theorem txSend (d : Byte) : Statement (.txSend d) := by unfold Statement; revert d; decide
theorem rxStatus (d : Byte) : Statement (.rxStatus d) := by unfold Statement; revert d; decide
theorem rxRead (d : Byte) : Statement (.rxRead d) := by unfold Statement; revert d; decide
theorem rxClear (d : Byte) : Statement (.rxClear d) := by unfold Statement; revert d; decide
theorem rxTake (d : Byte) : Statement (.rxTake d) := by unfold Statement; revert d; decide
theorem rsv6 (d : Byte) : Statement (.rsv6 d) := by unfold Statement; revert d; decide
theorem rsv7 (d : Byte) : Statement (.rsv7 d) := by unfold Statement; revert d; decide
theorem frame (d : Byte) : Statement (.frame d) := by unfold Statement; revert d; decide

end Sys2Proof.Laws.RowMatch
end

