-- ==== Sys2Proof/Tests/Slice0.lean ====
section
/-! SUPPORT. The model's own tests: the checks refuse ill-formed terms, words written out from the spec's
encodings decode, one step of each instruction against 95_test_vectors, and a witness for the
hypotheses of every statement. Expected values are from the file named in each comment. -/

namespace Sys2Proof.Tests

open Sys2Proof.Machine

/-! ### The checks refuse ill-formed terms -/

/-- 00_scope R6: odd, and below 2. -/
theorem test_config_wf :
    (Config.mk 104 true).WF ∧ (Config.mk 2 false).WF ∧ ¬ (Config.mk 105 true).WF ∧
    ¬ (Config.mk 0 true).WF := by decide

/-- 43_formatter_collaborators R174: a lone percent sign before the terminator, in both spellings of the
end; R165: nothing after the first null is looked at. -/
theorem test_template_wf :
    templateWf [0x41#8, 0x25#8] = false ∧ templateWf [0x25#8, 0x00#8, 0x64#8] = false ∧
    templateWf [0x25#8, 0x25#8] = true ∧ templateWf [0x00#8, 0x25#8] = true := by decide

/-- 30_encoding R98: a host must not issue a reserved opcode; R92: a frame is no host statement; R102: a
name must be bound. -/
theorem test_stmt_wf :
    Stmt.wf [] (.command (.rsv6 0#8) none) = false ∧
    Stmt.wf [] (.command (.rsv7 0#8) none) = false ∧
    Stmt.wf [] (.command (.frame 0#8) none) = false ∧
    Stmt.wf [] (.sendVar 3) = false ∧ Stmt.wf [3] (.sendVar 3) = true ∧
    Stmt.wf [] (.printf [0x25#8] 5#8) = false ∧
    Stmt.wf [] (.command (.rxTake 0#8) none) = true := by decide

/-- 30_encoding R102: a name is bound by an earlier statement, not by a later one. -/
theorem test_program_wf :
    programWf [] [.getc (some 1), .sendVar 1] = true ∧
    programWf [] [.sendVar 1, .getc (some 1)] = false := by decide

/-- 30_encoding R90, R93: what is no word of a port is refused by name. -/
theorem test_decode_refuses :
    decodeRaw 10 0b1101001011 = .error .startNotLow ∧
    decodeRaw 10 0b0101001010 = .error .stopNotHigh ∧
    decodeRaw 10 1024 = .error .noSuchWord ∧ decodeRaw 11 2048 = .error .noSuchWord ∧
    decodeRaw 16 2048 = .error .noSuchWord := by
  refine ⟨?_, ?_, ?_, ?_, ?_⟩ <;> rfl

/-- The template of 43_formatter_collaborators R174 is refused by the expansion as well. -/
theorem test_expand_refuses :
    expandStmt .wrap (.printf [0x25#8] 5#8) = none ∧
    expandStmt .wrap (.command (.frame 0x41#8) none) = none := by decide

/-! ### Words written out (30_encoding R90, R94; 95_test_vectors V2) -/

theorem test_decode_nop : decodeTableWord 11 0b00000000000 = some (.nop 0x00#8) := by decide
theorem test_decode_txSend : decodeTableWord 11 0b00101000001 = some (.txSend 0x41#8) := by decide
theorem test_decode_rxStatus : decodeTableWord 11 0b01000000000 = some (.rxStatus 0x00#8) := by decide
theorem test_decode_rxRead : decodeTableWord 11 0b01100000000 = some (.rxRead 0x00#8) := by decide
theorem test_decode_rxClear : decodeTableWord 11 0b10000000000 = some (.rxClear 0x00#8) := by decide
theorem test_decode_rxTake : decodeTableWord 11 0b10111111111 = some (.rxTake 0xFF#8) := by decide
theorem test_decode_rsv6 : decodeTableWord 16 0b11010000000 = some (.rsv6 0x80#8) := by decide
theorem test_decode_rsv7 : decodeTableWord 16 0b11100000001 = some (.rsv7 0x01#8) := by decide

/-- Stop 1, data bits 7 to 0 of 0x41, start 0 (30_encoding R90). -/
theorem test_decode_frame : decodeTableWord 10 0b1010000010 = some (.frame 0x41#8) := by decide

/-! ### Small states -/

/-- The reset state at the shortest bit period. -/
def small (preempts : Bool) : State :=
  { State.reset with cfg := { bitPeriod := 2, rxPreempts := preempts } }

/-- The pre-state of 95_test_vectors V2 and V3. -/
def flagged (ready : Bool) : State := { State.reset with box := { byte := 0x6F#8, ready := ready } }

/-- The pre-state of 95_test_vectors V4: a frame being sent. -/
def sending : State :=
  { flagged true with
    tx := { active := true, timer := 50, cnt := 5#4, sr := 0xF5#8, c := false, line := false } }

/-- The pre-state of 95_test_vectors V5: a reception in progress. -/
def receiving (preempts : Bool) : State :=
  { flagged true with
    cfg := { bitPeriod := 104, rxPreempts := preempts }
    rx := { prev := false, edgePending := true, active := true, timer := 50, cnt := 5#4,
            acc := 0#8, c := false } }

/-- A receiver at a sample tick, with `cnt` samples to come (95_test_vectors V9). -/
def sampling (preempts : Bool) (cnt : Count) (acc : Byte) (line : Level) : State :=
  { flagged true with
    cfg := { bitPeriod := 104, rxPreempts := preempts }
    rx := { prev := true, edgePending := true, active := true, timer := 1, cnt := cnt,
            acc := acc, c := false }
    rxIn := [line] }

/-- A state whose host presents one word in this tick. -/
def offering (w : CmdWord) (s : State) : State := { s with host := { ops := [.offer w], vars := [] } }

/-- A state whose line is low in this tick. -/
def falling (s : State) : State := { s with rxIn := [false] }

/-- A state with reset applied in this tick. -/
def resetting (s : State) : State := { s with rstIn := [true] }

/-- What a test looks at in the next state. -/
def seen {α : Type} (f : State → α) (o : Host.Outcome State Fault Refusal) : Option α :=
  match o with
  | .next t => some (f t)
  | .fault _ => none
  | .refused _ => none

/-! ### One tick of each instruction (95_test_vectors V2 to V9) -/

theorem test_nop :
    seen (fun t => (t.accepted, t.rsp, t.rx, t.box, t.tx)) (exec (.nop 0x5A#8) (flagged true)) =
      some (true, 0x000#9, (flagged true).rx, (flagged true).box, (flagged true).tx) := by decide

theorem test_txSend :
    seen (fun t => (t.accepted, t.rsp, t.tx, t.box.ready)) (exec (.txSend 0x5A#8) (flagged true)) =
      some (true, 0x000#9, ⟨true, 104, 9#4, 0x5A#8, false, false⟩, true) := by decide

theorem test_rxStatus_set :
    seen (fun t => (t.accepted, t.rsp, t.box)) (exec (.rxStatus 0x5A#8) (flagged true)) =
      some (true, 0x100#9, ⟨0x6F#8, true⟩) := by decide

theorem test_rxStatus_clear :
    seen (fun t => (t.accepted, t.rsp)) (exec (.rxStatus 0x5A#8) (flagged false)) =
      some (true, 0x000#9) := by decide

theorem test_rxRead_set :
    seen (fun t => (t.accepted, t.rsp, t.box)) (exec (.rxRead 0x5A#8) (flagged true)) =
      some (true, 0x06F#9, ⟨0x6F#8, true⟩) := by decide

theorem test_rxRead_stale :
    seen (fun t => (t.accepted, t.rsp, t.box)) (exec (.rxRead 0x5A#8) (flagged false)) =
      some (true, 0x06F#9, ⟨0x6F#8, false⟩) := by decide

theorem test_rxClear :
    seen (fun t => (t.accepted, t.rsp, t.box)) (exec (.rxClear 0x5A#8) (flagged true)) =
      some (true, 0x000#9, ⟨0x6F#8, false⟩) := by decide

/-- 95_test_vectors V5, second half: accepted in mid-reception where the receiver does not preempt. -/
theorem test_rxTake_accepted :
    seen (fun t => (t.accepted, t.rsp, t.box.ready, t.rx.timer)) (exec (.rxTake 0#8) (receiving false)) =
      some (true, 0x16F#9, false, 49) := by decide

/-- 95_test_vectors V5, first half. -/
theorem test_rxTake_stalled :
    seen (fun t => (t.accepted, t.rsp, t.box.ready, t.rx.timer, t.rx.prev))
      (exec (.rxTake 0#8) (receiving true)) = some (false, 0x000#9, true, 49, true) := by decide

/-- 95_test_vectors V4: not accepted while a frame is being sent. -/
theorem test_step_busy :
    seen (fun t => (t.accepted, t.rsp, t.tx, t.box)) (step (offering 0x500#11 sending)) =
      some (false, 0x000#9, ⟨true, 49, 5#4, 0xF5#8, false, false⟩, ⟨0x6F#8, true⟩) := by decide

theorem test_rsv6 :
    seen (fun t => (t.accepted, t.rsp, t.box, t.tx.active)) (exec (.rsv6 0x5A#8) (flagged true)) =
      some (true, 0x000#9, ⟨0x6F#8, true⟩, false) := by decide

theorem test_rsv7 :
    seen (fun t => (t.accepted, t.rsp, t.box, t.tx.active)) (exec (.rsv7 0x5A#8) (flagged true)) =
      some (true, 0x000#9, ⟨0x6F#8, true⟩, false) := by decide

/-- 95_test_vectors V7: the start bit's fall starts a reception. -/
theorem test_frame :
    seen (fun t => (t.accepted, t.rx)) (exec (.frame 0x41#8) State.reset) =
      some (false, ⟨false, true, true, 156, 8#4, 0#8, false⟩) := by decide

/-- 95_test_vectors V9, rows 1 and 2. -/
theorem test_sample :
    seen (fun t => (t.rx.acc, t.rx.c, t.rx.cnt, t.rx.timer)) (step (sampling true 5#4 0xA0#8 true)) =
        some (0xD0#8, false, 4#4, 104) ∧
      seen (fun t => (t.rx.acc, t.rx.c, t.rx.cnt, t.rx.timer)) (step (sampling true 5#4 0xA1#8 false)) =
        some (0x50#8, true, 4#4, 104) := by decide

/-- 95_test_vectors V9, row 3. -/
theorem test_publish :
    seen (fun t => (t.box, t.rx.active, t.rx.edgePending, t.rx.cnt, t.rx.timer))
      (step (sampling true 1#4 0xAA#8 false)) =
      some (⟨0x55#8, true⟩, false, false, 0#4, 0) := by decide

/-- 95_test_vectors V23: a take in the publication tick answers the old byte and the flag stays set. -/
theorem test_publication_wins :
    seen (fun t => (t.accepted, t.rsp, t.box))
      (step (offering 0x500#11 { sampling false 1#4 0x44#8 false with box := ⟨0x11#8, true⟩ })) =
      some (true, 0x111#9, ⟨0x22#8, true⟩) := by decide

/-- 95_test_vectors V27: the first step of 0x41. -/
theorem test_tx_step :
    seen (fun t => t.tx)
      (step { State.reset with tx := ⟨true, 1, 9#4, 0x41#8, false, false⟩ }) =
      some ⟨true, 104, 8#4, 0xA0#8, true, true⟩ := by decide

/-- 95_test_vectors E2, E3, E4. -/
theorem test_formatter :
    formatUnsigned 7 = [0x30#8, 0x30#8, 0x37#8] ∧
    formatSigned .wrap 0xFF#8 = [0x2D#8, 0x30#8, 0x30#8, 0x31#8] ∧
    formatBinary 0b10110000#8 =
      [0x31#8, 0x30#8, 0x31#8, 0x31#8, 0x30#8, 0x30#8, 0x30#8, 0x30#8] ∧
    formatTemplate .wrap 5#8 [0x25#8, 0x78#8] = some [0x21#8] := by decide

/-! ### Witnesses: states and operands that meet the hypotheses of the statements -/

theorem witness_OpcodeMapDecodesEveryWord :
    opBits 0x0FF#11 = 0x000#11 ∧ opBits 0x1FF#11 = 0x100#11 ∧ opBits 0x2FF#11 = 0x200#11 ∧
    opBits 0x3FF#11 = 0x300#11 ∧ opBits 0x400#11 = 0x400#11 ∧ opBits 0x500#11 = 0x500#11 ∧
    opBits 0x600#11 = 0x600#11 ∧ opBits 0x7FF#11 = 0x700#11 := by decide

theorem witness_DecodeOfEncodeIsTheInstruction :
    (Instr.frame 0xFF#8).wf = true ∧ (Instr.rsv7 0xFF#8).isCommand = true := by decide

theorem witness_EveryCommandWordDecodesAndEncodesBack : (2047 < 2048) ∧ (2048 ≤ 2048) := by decide

theorem witness_FrameWordsDecodeExactly :
    (512 < 1024 ∧ 512 % 2 = 0 ∧ 512 ≤ 512) ∧ (1023 < 1024 ∧ 1023 % 2 = 1) ∧
    (510 < 512 ∧ 510 % 2 = 0) ∧ (1024 ≤ 1024) := by decide

theorem witness_FrameIsTenSlotsLeastSignificantBitFirst : (0 < 10 ∧ 9 < 10) ∧ (0 < 2 ∧ 1 < 2) := by decide

theorem witness_OperandIsIgnoredOutsideTxSend :
    opBits 0x200#11 = opBits 0x2FF#11 ∧ opBits 0x200#11 ≠ 0x100#11 := by decide

theorem witness_RotateRightThroughCarry : 0 < 7 ∧ 6 < 7 := by decide

theorem witness_ResetBeatsEverythingElse : (resetting (offering 0x1FF#11 (sending))).rstNow = true := by
  decide

theorem witness_StepRunsThePresentedInstruction :
    ((offering 0x25A#11 (flagged true)).host.presents = some 0x25A#11 ∧
      exec (decodeCommand 0x25A#11) (offering 0x25A#11 (flagged true)) =
        .next ((offering 0x25A#11 (flagged true)).tick
          (some ⟨rspWord true 0#8, none, false⟩))) ∧
    (flagged true).host.presents = none := ⟨⟨rfl, rfl⟩, rfl⟩

theorem witness_FetchedWordRunsNext : 0 < 2048 ∧ 2047 < 2048 := by decide

theorem witness_ResponseFollowsTheTable :
    (offering 0x500#11 (flagged true)).host.presents = some 0x500#11 ∧
    (offering 0x500#11 (flagged true)).after.accepted = true ∧ opBits 0x500#11 = 0x500#11 ∧
    (flagged true).after.accepted = false ∧
    (offering 0x200#11 (flagged true)).after.accepted = true ∧
    (offering 0x300#11 (flagged true)).after.accepted = true ∧
    (offering 0x7FF#11 (flagged true)).after.accepted = true := by decide

theorem witness_ClosedPortCommandHasNoEffect :
    (Instr.rxTake 0#8).isCommand = true ∧
    (sending.rstNow = false ∧ sending.outputs.cmdReady = false) ∧
    ((receiving true).rstNow = false ∧ (receiving true).outputs.cmdReady = false) := by decide

theorem witness_NopAndReservedWriteNothing :
    (flagged true).PortOpen ∧
    (Instr.rsv7 0xFF#8 = .nop 0xFF#8 ∨ Instr.rsv7 0xFF#8 = .rsv6 0xFF#8 ∨
      Instr.rsv7 0xFF#8 = .rsv7 0xFF#8) := by decide

theorem witness_TxSendLoadsTheTransmitter : (flagged true).PortOpen := by decide
theorem witness_RxStatusAnswersTheFlag : (receiving false).PortOpen := by decide
theorem witness_RxReadAnswersTheByte : (flagged false).PortOpen := by decide
theorem witness_RxClearClearsTheFlag : (receiving false).PortOpen ∧ ¬ (receiving false).Publishing := by
  decide
theorem witness_RxTakeAnswersAndClears : (receiving false).PortOpen ∧ ¬ (receiving false).Publishing := by
  decide

theorem witness_FrameBeginsOnTheReceiveLine : sending.rstNow = false ∧ 0 < sending.cfg.bitPeriod := by
  decide

theorem witness_PublicationWinsOverAClear :
    (sampling false 1#4 0x44#8 false).PortOpen ∧ (sampling false 1#4 0x44#8 false).Publishing := by decide

theorem witness_ClearIsIdempotentAndTakeIsNot :
    (flagged true).PortOpen ∧ ¬ (flagged true).Publishing ∧
    (offering 0x400#11 (flagged true)).after.PortOpen ∧
    ¬ (offering 0x500#11 (flagged true)).after.Publishing := by decide

/-- An edge, and a latch left pending. -/
theorem witness_EdgeStartsAReception :
    ((falling sending).rstNow = false ∧ (falling sending).rx.active = false ∧
      (falling sending).Pending) ∧
    State.Pending { State.reset with rx := ⟨false, true, false, 0, 0#4, 0#8, false⟩ } := by decide

theorem witness_IdleReceiverOnlyRemembersTheLine :
    sending.rstNow = false ∧ sending.rx.active = false ∧ ¬ sending.Pending := by decide

theorem witness_ReceiverCountsDown :
    (receiving true).rstNow = false ∧ (receiving true).rx.active = true ∧
    1 < (receiving true).rx.timer := by decide

theorem witness_SampleRotatesTheLineIn :
    (sampling true 2#4 0xA0#8 true).rstNow = false ∧ (sampling true 2#4 0xA0#8 true).rx.active = true ∧
    (sampling true 2#4 0xA0#8 true).rx.timer ≤ 1 ∧
    1 < (sampling true 2#4 0xA0#8 true).rx.cnt.toNat := by decide

theorem witness_LastSamplePublishesAndRearms :
    (sampling true 1#4 0xAA#8 false).rstNow = false ∧
    (sampling true 1#4 0xAA#8 false).rx.active = true ∧
    (sampling true 1#4 0xAA#8 false).rx.timer ≤ 1 ∧
    (sampling true 1#4 0xAA#8 false).rx.cnt.toNat ≤ 1 := by decide

theorem witness_TransmitterCountsDown :
    sending.rstNow = false ∧ ¬ sending.Stalled ∧ sending.tx.active = true ∧ 1 < sending.tx.timer := by
  decide

/-- A transmitter due for its next step, with `cnt` steps still to do. -/
def due (cnt : Count) : State :=
  { flagged false with
    tx := { active := true, timer := 1, cnt := cnt, sr := 0xFF#8, c := true, line := true } }

theorem witness_TransmitStepPrimesAndRotates :
    (due 1#4).rstNow = false ∧ ¬ (due 1#4).Stalled ∧ (due 1#4).tx.active = true ∧
    (due 1#4).tx.timer ≤ 1 ∧ 0 < (due 1#4).tx.cnt.toNat := by decide

theorem witness_FrameEndFreesTheTransmitter :
    (due 0#4).rstNow = false ∧ ¬ (due 0#4).Stalled ∧ (due 0#4).tx.active = true ∧
    (due 0#4).tx.timer ≤ 1 ∧ (due 0#4).tx.cnt = 0#4 := by decide

/-- Nothing to send, an accepted byte, and a stalled tick. -/
theorem witness_IdleTransmitterWaitsForTxSend :
    ((flagged true).rstNow = false ∧ (flagged true).tx.active = false ∧
      (flagged true).sendPresented = none) ∧
    (¬ (offering 0x141#11 (flagged true)).Stalled ∧
      (offering 0x141#11 (flagged true)).sendPresented = some 0x41#8) ∧
    (receiving true).Stalled := by decide

theorem witness_StallFreezesTheMainContext :
    ((receiving true).rstNow = false ∧ (receiving true).cfg.rxPreempts = true ∧
      (receiving true).rx.active = true) ∧
    (receiving false).cfg.rxPreempts = false := by decide

theorem witness_EveryTickKeepsTheInvariant :
    (offering 0x141#11 (small true)).Inv ∧
    step (offering 0x141#11 (small true)) = .next (offering 0x141#11 (small true)).after ∧
    exec (.frame 0x41#8) (small true) = .next (((small true).driveWord (frameWord 0x41#8)).tick none) :=
  ⟨by decide, step_eq _, rfl⟩

/-- A publication in the first of one tick. -/
theorem witness_SetFlagMeansAPublishedByte :
    ({ sampling true 1#4 0xAA#8 false with box := ⟨0x00#8, false⟩ } : State).box.ready = false ∧
    Reaches 1 { sampling true 1#4 0xAA#8 false with box := ⟨0x00#8, false⟩ }
      (State.after { sampling true 1#4 0xAA#8 false with box := ⟨0x00#8, false⟩ }) ∧
    (State.after { sampling true 1#4 0xAA#8 false with box := ⟨0x00#8, false⟩ }).box.ready = true :=
  ⟨rfl, (reaches_iff _ _ _).mpr rfl, by decide⟩

theorem witness_PositionsChangeByOneOfFourMoves :
    sending.rstNow = false ∧ (due 0#4).rstNow = false ∧ (due 1#4).rstNow = false := by decide

/-- Two states that differ in what each clause does not name: the transmitter and the command for the
receiver's clause, the mailbox and the receiver's position for the other two. -/
theorem witness_ContextsDependOnlyOnWhatTheyOwn :
    (sending.rstNow = false ∧ (flagged true).rstNow = false ∧
      sending.cfg.bitPeriod = (flagged true).cfg.bitPeriod ∧ sending.rx = (flagged true).rx ∧
      sending.lineNow = (flagged true).lineNow ∧ sending.box.ready = (flagged true).box.ready ∧
      sending.outputs.cmdReady ≠ (flagged true).outputs.cmdReady ∧
      sending.host.presents = none ∧ (flagged true).host.presents = none) ∧
    ((receiving false).tx = (flagged false).tx ∧ (receiving false).stall = (flagged false).stall ∧
      (receiving false).sendPresented = (flagged false).sendPresented ∧
      (receiving false).host.presents.isSome = (flagged false).host.presents.isSome) := by decide

/-- With a publication, and without one: a clear accepted, and no command. -/
theorem witness_MailboxChangesByPublicationAndClearOnly :
    (sampling true 1#4 0xAA#8 false).Publishing ∧ ¬ (flagged true).Publishing ∧
    (offering 0x400#11 (flagged true)).after.accepted = true ∧
    (offering 0x400#11 (flagged true)).ClearPresented ∧ (flagged true).after.accepted = false :=
  ⟨by decide, by decide, by decide, ⟨0x400#11, rfl, by decide⟩, by decide⟩

/-- A reception at the shortest bit period: eighteen ticks with no reset. -/
theorem noReset_small (preempts : Bool) (line : List Level) (n : Nat) :
    State.noResetFor { small preempts with rxIn := line } n := by
  intro j _
  simp [small, State.reset]

theorem witness_ReceptionPublishesTheEightSamples :
    (falling (small false)).cfg.WF ∧ (falling (small false)).rx.active = false ∧
    (falling (small false)).Pending ∧ (falling (small false)).noResetFor 18 ∧
    receptionTicks (falling (small false)).cfg + 1 = 18 :=
  ⟨by decide, by decide, by decide, noReset_small false [false] 18, by decide⟩

/-- The first and the last tick of the clause that counts ticks. -/
theorem witness_ReceptionIsBusyForItsFixedLength :
    (falling (small true)).cfg.WF ∧ (falling (small true)).rx.active = false ∧
    (falling (small true)).Pending ∧
    (falling (small true)).noResetFor (receptionTicks (falling (small true)).cfg + 1) ∧
    1 ≤ 3 * (falling (small true)).cfg.bitPeriod / 2 + 7 * (falling (small true)).cfg.bitPeriod :=
  ⟨by decide, by decide, by decide, noReset_small true [false] _, by decide⟩

theorem witness_WellFormedFrameIsReceived :
    (small true).cfg.WF ∧ (small true).rx.active = false ∧ (small true).rx.prev = true ∧
    (small true).noResetFor (receptionTicks (small true).cfg + 1) :=
  ⟨by decide, by decide, by decide, noReset_small true [] _⟩

theorem witness_ReceptionFreezesTheTransmitterForItsLength :
    (falling (small true)).cfg.WF ∧ (falling (small true)).cfg.rxPreempts = true ∧
    (falling (small true)).rx.active = false ∧ (falling (small true)).Pending ∧
    (falling (small true)).noResetFor (receptionTicks (falling (small true)).cfg + 1) :=
  ⟨by decide, by decide, by decide, by decide, noReset_small true [false] _⟩

/-- The glitch clause. -/
theorem witness_GlitchAndBreakAreReceivedAsBytes_glitch :
    (falling (small true)).cfg.WF ∧ (falling (small true)).rx.active = false ∧
    (falling (small true)).rx.prev = true ∧ (falling (small true)).lineAt 0 = false ∧
    (falling (small true)).noResetFor (receptionTicks (falling (small true)).cfg + 1) ∧
    ∀ k : Nat, k < 8 → (falling (small true)).lineAt
      (startDelay (falling (small true)).cfg + k * (falling (small true)).cfg.bitPeriod) = true :=
  ⟨by decide, by decide, by decide, by decide, noReset_small true [false] _, by decide⟩

/-- The line held low from this tick for the eighteen ticks of a reception, then back at 1. -/
def broken : State := { small true with rxIn := List.replicate 18 false }

/-- The break clause, with a return of the line to 1 in the ticks after it. -/
theorem witness_GlitchAndBreakAreReceivedAsBytes_break :
    broken.cfg.WF ∧ broken.rx.active = false ∧ broken.rx.prev = true ∧ broken.lineAt 0 = false ∧
    broken.noResetFor (receptionTicks broken.cfg + 1) ∧
    (∀ j : Nat, j ≤ receptionTicks broken.cfg → broken.lineAt j = false) ∧
    receptionTicks broken.cfg < 20 ∧ broken.noResetFor 20 ∧
    ∀ j : Nat, receptionTicks broken.cfg < j → j < 20 →
      ¬ (broken.lineAt (j - 1) = true ∧ broken.lineAt j = false) := by
  refine ⟨by decide, by decide, by decide, by decide, noReset_small true _ _, ?_, by decide,
    noReset_small true _ _, ?_⟩
  · intro j hj
    have h : ∀ j, j < 18 → broken.lineAt j = false := by decide
    exact h j (Nat.lt_succ_of_le hj)
  · intro j h1 h2
    have h : ∀ j, j < 20 → 17 < j → ¬ (broken.lineAt (j - 1) = true ∧ broken.lineAt j = false) := by
      decide
    exact h j h2 h1

theorem witness_PeerPeriodMustLieInTheEye :
    (0 < 98 ∧ ¬ (99 ≤ 98 ∧ 98 ≤ 110)) ∧ (0 < 99 ∧ 99 ≤ 99 ∧ 99 ≤ 110) ∧ (0 < 110 ∧ 99 ≤ 110 ∧ 110 ≤ 110) ∧
    (0 < 111 ∧ ¬ (99 ≤ 111 ∧ 111 ≤ 110)) := by decide

/-- An accepted send on a block that does not preempt: no tick of it is stalled. -/
theorem witness_TransmissionIsTheFrameWave :
    (small false).cfg.WF ∧ (small false).PortOpen ∧
    ∃ t, exec (.txSend 0xA5#8) (small false) = .next t ∧ t.noResetFor (10 * (small false).cfg.bitPeriod) ∧
      ∀ (j : Nat) (u : State), j < 10 * (small false).cfg.bitPeriod → Reaches j t u → ¬ u.Stalled := by
  refine ⟨by decide, by decide, _, rfl, ?_, ?_⟩
  · intro j _
    simp [small, State.reset]
  · intro j u _ h hs
    rw [reaches_iff] at h
    subst h
    have := hs.1
    rw [afterN_cfg, tick_cfg] at this
    exact absurd this (by decide)

theorem witness_SelfWiredBlockReceivesWhatItSends :
    (offering 0x141#11 (small false)).cfg.WF ∧ (offering 0x141#11 (small false)).cfg.rxPreempts = false ∧
    (offering 0x141#11 (small false)).PortOpen ∧ (offering 0x141#11 (small false)).rx.active = false ∧
    (offering 0x141#11 (small false)).rx.edgePending = false ∧
    (offering 0x141#11 (small false)).tx.line = true ∧
    (offering 0x141#11 (small false)).sendPresented = some 0x41#8 ∧
    (offering 0x141#11 (small false)).noResetFor
      (receptionTicks (offering 0x141#11 (small false)).cfg + 2) :=
  ⟨by decide, by decide, by decide, by decide, by decide, by decide, by decide,
    fun j _ => by simp [offering, small, State.reset]⟩

theorem witness_SelfWiredPreemptingBlockReceivesZero :
    (offering 0x141#11 (small true)).cfg.WF ∧ (offering 0x141#11 (small true)).cfg.rxPreempts = true ∧
    (offering 0x141#11 (small true)).PortOpen ∧ (offering 0x141#11 (small true)).rx.active = false ∧
    (offering 0x141#11 (small true)).rx.edgePending = false ∧
    (offering 0x141#11 (small true)).tx.line = true ∧
    (offering 0x141#11 (small true)).sendPresented = some 0x41#8 ∧
    (offering 0x141#11 (small true)).noResetFor
      (receptionTicks (offering 0x141#11 (small true)).cfg + 2) :=
  ⟨by decide, by decide, by decide, by decide, by decide, by decide, by decide,
    fun j _ => by simp [offering, small, State.reset]⟩

/-- A sender that preempts, with its own line driven at 1 for two ticks and idle after them; and a sender
that does not preempt, whose own line is low and whose receiver is about to start. -/
theorem witness_TwoBlocksRoundTripEveryByte :
    (let a := offering 0x141#11 { small true with rxIn := [true, true] }
     a.cfg.WF ∧ (small true).cfg.bitPeriod = a.cfg.bitPeriod ∧ a.PortOpen ∧
      a.sendPresented = some 0x41#8 ∧ a.tx.line = true ∧ a.rx.active = false ∧
      a.rx.edgePending = false ∧ (∀ j : Nat, j < receptionTicks a.cfg + 2 → a.lineAt j = true) ∧
      (small true).rx.active = false ∧ (small true).rx.edgePending = false) ∧
    (let a := offering 0x141#11 (falling (small false))
     a.cfg.WF ∧ a.PortOpen ∧ a.sendPresented = some 0x41#8 ∧ a.tx.line = true ∧
      a.cfg.rxPreempts = false) ∧
    (∀ n, State.noResetFor (offering 0x141#11 { small true with rxIn := [true, true] }) n) ∧
    (∀ n, (offering 0x141#11 (falling (small false))).noResetFor n) ∧
    (∀ n, (small true).noResetFor n) :=
  ⟨by decide, by decide, fun _ j _ => by simp [offering, small, State.reset],
    fun _ j _ => by simp [offering, falling, small, State.reset], noReset_small true []⟩

/-- A state whose host runs these operations. -/
def running (ops : List HostOp) (s : State) : State := s.loadProgram ops

/-- Each kind of host operation, accepted and not. -/
theorem witness_HostPresentsUntilAccepted :
    ((running [.issue 0x300#11 (some 7)] (flagged true)).host.ops = .issue 0x300#11 (some 7) :: [] ∧
      (running [.issue 0x300#11 (some 7)] (flagged true)).after.accepted = true ∧
      (running [.issue 0x300#11 (some 7)] sending).after.accepted = false) ∧
    ((running [.poll] (flagged true)).after.accepted = true ∧ (flagged true).box.ready = true ∧
      (running [.poll] (flagged false)).after.accepted = true ∧ (flagged false).box.ready = false ∧
      (running [.poll] sending).after.accepted = false) ∧
    (State.after { flagged true with host := ⟨[.sendVar 7], [(7, 0x16F#9)]⟩ }).accepted = true ∧
    (running [.sendVar 7] (flagged true)).after.accepted = false := by decide

theorem witness_StimulusDrivesTheLine :
    (9 < 10 ∧ 103 < 104) ∧ (49 < 50 ∨ 50 + 10 * 104 ≤ 49) ∧ (1090 < 50 ∨ 50 + 10 * 104 ≤ 1090) := by
  decide

theorem witness_FormatterRendersNumbers :
    (0x7F#8).toNat < 128 ∧ 128 < (0x81#8).toNat ∧ 0 < 8 ∧ 7 < 8 := by decide

/-- A plain character, and a character after a percent sign that is no directive. -/
theorem witness_TemplateScanFollowsTheDirectives :
    (0x41#8 ≠ 0x00#8 ∧ 0x41#8 ≠ 0x25#8) ∧
    (0x78#8 ≠ 0x00#8 ∧ 0x78#8 ≠ 0x64#8 ∧ 0x78#8 ≠ 0x75#8 ∧ 0x78#8 ≠ 0x62#8 ∧ 0x78#8 ≠ 0x63#8 ∧
      0x78#8 ≠ 0x25#8) := by decide

end Sys2Proof.Tests
end

namespace Sys2Proof.Proofs

open Sys2Proof.Machine

/-- Settles O8, from the laws of `rrc`: its carry, and its byte read bit by bit (00_scope R16). -/
theorem rotateRightThroughCarry : Obligations.RotateRightThroughCarry := by
  intro c v
  have hin : (rrc c v).2.getLsbD 7 = c := by
    rw [rrc_getLsbD c v 7 (by omega), if_pos rfl]
  have hdown (k : Nat) (hk : k < 7) : (rrc c v).2.getLsbD k = v.getLsbD (k + 1) := by
    rw [rrc_getLsbD c v k (by omega), if_neg (by omega)]
  exact ⟨rrc_carry c v, hin, hdown⟩

end Sys2Proof.Proofs

/-! ### The state and its invariant (10_state R31, R36, R39, R54, R58)

First what these statements share: which move of each engine is due, what a reset leaves, and what a
whole step does to the transmitter, to the record of acceptance and to the mailbox. -/

namespace Sys2Proof.Proofs

open Sys2Proof.Machine

/-! #### The moves of a tick, exhaustively -/

/-- In every state one of the receiver's moves is due (45_tick_step R196). -/
theorem receiver_move_due (s : State) :
    (s.rx.active = false ∧ s.Pending) ∨
    (s.rx.active = false ∧ ¬ s.Pending) ∨
    (s.rx.active = true ∧ 1 < s.rx.timer) ∨
    (s.rx.active = true ∧ s.rx.timer ≤ 1 ∧ 1 < s.rx.cnt.toNat) ∨
    s.Publishing := by
  cases ha : s.rx.active
  · by_cases hp : s.Pending
    · exact .inl ⟨rfl, hp⟩
    · exact .inr (.inl ⟨rfl, hp⟩)
  · rcases Nat.lt_or_ge 1 s.rx.timer with ht | ht
    · exact .inr (.inr (.inl ⟨rfl, ht⟩))
    · rcases Nat.lt_or_ge 1 s.rx.cnt.toNat with hc | hc
      · exact .inr (.inr (.inr (.inl ⟨rfl, ht, hc⟩)))
      · exact .inr (.inr (.inr (.inr ⟨ha, ht, hc⟩)))

/-- In every state the transmitter is stalled, or idle, or one of its moves is due (45_tick_step R197;
60_exceptions R207). -/
theorem transmitter_move_due (s : State) :
    s.Stalled ∨
    (¬ s.Stalled ∧ s.tx.active = false) ∨
    (¬ s.Stalled ∧ s.tx.active = true ∧ 1 < s.tx.timer) ∨
    (¬ s.Stalled ∧ s.tx.active = true ∧ s.tx.timer ≤ 1 ∧ 0 < s.tx.cnt.toNat) ∨
    (¬ s.Stalled ∧ s.tx.active = true ∧ s.tx.timer ≤ 1 ∧ s.tx.cnt = 0#4) := by
  by_cases hs : s.Stalled
  · exact .inl hs
  cases ha : s.tx.active
  · exact .inr (.inl ⟨hs, rfl⟩)
  · rcases Nat.lt_or_ge 1 s.tx.timer with ht | ht
    · exact .inr (.inr (.inl ⟨hs, rfl, ht⟩))
    · rcases Nat.eq_zero_or_pos s.tx.cnt.toNat with hc | hc
      · exact .inr (.inr (.inr (.inr ⟨hs, rfl, ht, BitVec.eq_of_toNat_eq hc⟩)))
      · exact .inr (.inr (.inr (.inl ⟨hs, rfl, ht, hc⟩)))

/-- A counter above 0 counts down without a wrap. -/
theorem count_sub_one_toNat {n : Count} (h : 0 < n.toNat) : (n - 1#4).toNat = n.toNat - 1 :=
  BitVec.toNat_sub_of_le (BitVec.le_def.mpr h)

/-! #### Reset -/

theorem reset_atReset : AtReset State.reset := ⟨rfl, rfl, rfl, rfl, rfl, rfl, rfl, rfl, rfl, rfl, rfl⟩

/-- A tick with reset leaves the specified values, whatever the pre-state (70_reset_and_hazards R230). -/
theorem resetTick_atReset (s : State) : AtReset s.resetTick :=
  ⟨rfl, rfl, rfl, rfl, rfl, rfl, rfl, rfl, rfl, rfl, rfl⟩

/-- An idle receiver meets the invariant with its position at rest (10_state R54, item 1). -/
theorem rxInv_idle {c : Config} {rx : Receiver} (ha : rx.active = false)
    (h : rx.cnt = 0#4 ∧ rx.timer = 0 ∧ rx.edgePending = false) : RxInv c rx :=
  ⟨fun _ => h, fun hb => by simp [ha] at hb⟩

/-- A busy receiver meets the invariant within the bounds of 10_state R54, item 2. -/
theorem rxInv_busy {c : Config} {rx : Receiver} (ha : rx.active = true)
    (h : 1 ≤ rx.cnt.toNat ∧ rx.cnt.toNat ≤ 8 ∧ 1 ≤ rx.timer ∧ rx.timer ≤ startDelay c ∧
      rx.edgePending = true ∧ (rx.cnt.toNat < 8 → rx.timer ≤ c.bitPeriod)) : RxInv c rx :=
  ⟨fun hi => by simp [ha] at hi, fun _ => h⟩

/-- An idle transmitter meets the invariant at the stop level (10_state R54, items 3 and 5). -/
theorem txInv_idle {c : Config} {tx : Transmitter} (ha : tx.active = false)
    (h : tx.cnt = 0#4 ∧ tx.timer = 0 ∧ tx.line = true ∧ tx.c = true) : TxInv c tx :=
  have ⟨_, _, hline, hcarry⟩ := h
  ⟨fun _ => h, fun hb => by simp [ha] at hb, hline.trans hcarry.symm⟩

/-- A busy transmitter meets the invariant within the bounds of 10_state R54, items 4 and 5, with its
primed ones in place (42_transmitter R154). -/
theorem txInv_busy {c : Config} {tx : Transmitter} (ha : tx.active = true)
    (h : tx.cnt.toNat ≤ 9 ∧ 1 ≤ tx.timer ∧ tx.timer ≤ c.bitPeriod ∧
      (∀ k : Nat, k < 8 → tx.cnt.toNat ≤ k + 1 → tx.sr.getLsbD k = true) ∧
      (tx.cnt = 0#4 → tx.line = true)) (hline : tx.line = tx.c) : TxInv c tx :=
  ⟨fun hi => by simp [ha] at hi, fun _ => h, hline⟩

/-- The values of 10_state R58 meet the invariant, whatever the unspecified fields hold. -/
theorem inv_of_atReset {t : State} (hwf : t.cfg.WF) (h : AtReset t) : t.Inv :=
  ⟨hwf, rxInv_idle h.rxActive ⟨h.rxCnt, h.rxTimer, h.edgePending⟩,
    txInv_idle h.txActive ⟨h.txCnt, h.txTimer, h.txLine, h.txC⟩⟩

/-- Settles O9: the specified fields by `reset_atReset`, and the outputs, which read them. -/
theorem resetStateHasTheSpecifiedValues : Obligations.ResetStateHasTheSpecifiedValues :=
  ⟨reset_atReset, rfl, rfl, rfl, rfl, rfl⟩

/-- Settles O36: the reset state has the reset values, and the default parameters are allowed. -/
theorem resetMeetsTheInvariant : Obligations.ResetMeetsTheInvariant :=
  inv_of_atReset (by decide) reset_atReset

/-! #### The invariant -/

/-- The receiver's moves keep 10_state R54, items 1 and 2. -/
theorem receiverMoves_rxInv {s t : State} (hm : ReceiverMoves s t) (hwf : s.cfg.WF)
    (h : RxInv s.cfg s.rx) : RxInv s.cfg t.rx := by
  have hpos : 1 ≤ s.cfg.bitPeriod := Nat.le_of_succ_le hwf.2
  have hdelay : s.cfg.bitPeriod ≤ startDelay s.cfg := by unfold startDelay; omega
  rcases receiver_move_due s with ⟨ha, hp⟩ | ⟨ha, hp⟩ | ⟨ha, ht⟩ | ⟨ha, ht, hc⟩ | hp
  · rw [hm.start ha hp]
    exact rxInv_busy rfl ⟨by simp, by simp, hpos.trans hdelay, le_rfl, rfl, by simp⟩
  · rw [hm.idle ha hp]
    exact rxInv_idle ha (h.1 ha)
  · obtain ⟨hc1, hc8, -, htd, hpend, htp⟩ := h.2 ha
    rw [hm.count ha ht]
    exact rxInv_busy ha ⟨hc1, hc8, Nat.le_sub_one_of_lt ht,
      (Nat.sub_le _ _).trans htd, by simp [hpend], fun h8 => (Nat.sub_le _ _).trans (htp h8)⟩
  · obtain ⟨hc1, hc8, -, -, hpend, -⟩ := h.2 ha
    obtain ⟨hn1, hn8⟩ : 1 ≤ (s.rx.cnt - 1#4).toNat ∧ (s.rx.cnt - 1#4).toNat ≤ 8 := by
      rw [count_sub_one_toNat hc1]
      omega
    rw [hm.sample ha ht hc]
    exact rxInv_busy rfl ⟨hn1, hn8, hpos, hdelay, by simp [hpend], fun _ => le_rfl⟩
  · rw [hm.publish hp]
    exact rxInv_idle rfl ⟨rfl, rfl, rfl⟩

/-- A step moves the primed ones down with the count, and the carry forced to 1 adds the one at the
top (42_transmitter R153, R154). -/
theorem primed_shift {sr : Byte} {n m : Nat} (hn : n = m + 1)
    (h : ∀ k : Nat, k < 8 → n ≤ k + 1 → sr.getLsbD k = true) (k : Nat) (hk : k < 8)
    (hm : m ≤ k + 1) : (0x80#8 ||| (sr >>> 1)).getLsbD k = true := by
  have hrot : (0x80#8 ||| (sr >>> 1)) = (rrc true sr).2 := (rrc_value true sr).symm
  rw [hrot, rrc_getLsbD true sr k hk]
  split
  · rfl
  · exact h (k + 1) (by omega) (by omega)

/-- The transmitter's moves keep 10_state R54, items 3 to 5, and the primed ones of 42_transmitter
R154. -/
theorem transmitterMoves_txInv {send : Option Byte} {s t : State} (hm : TransmitterMoves send s t)
    (hwf : s.cfg.WF) (h : TxInv s.cfg s.tx) : TxInv s.cfg t.tx := by
  have ⟨_, hbusy, hline⟩ := h
  have hpos : 1 ≤ s.cfg.bitPeriod := Nat.le_of_succ_le hwf.2
  rcases transmitter_move_due s with
    hs | ⟨hs, ha⟩ | ⟨hs, ha, ht⟩ | ⟨hs, ha, ht, hc⟩ | ⟨hs, ha, ht, hc⟩
  · rw [hm.stalled hs]
    exact h
  · cases send with
    | none =>
      rw [hm.idle hs ha rfl]
      exact h
    | some d =>
      rw [hm.start hs ha d rfl]
      have hnone (k : Nat) (hk : k < 8) (h9 : 9 ≤ k + 1) : d.getLsbD k = true := by omega
      exact txInv_busy rfl ⟨by simp, hpos, le_rfl, hnone, by simp⟩ rfl
  · obtain ⟨hc9, -, htp, hprimed, hstop⟩ := hbusy ha
    rw [hm.count hs ha ht]
    exact txInv_busy ha
      ⟨hc9, Nat.le_sub_one_of_lt ht, (Nat.sub_le _ _).trans htp, hprimed, hstop⟩ hline
  · obtain ⟨hc9, -, -, hprimed, -⟩ := hbusy ha
    have hcnt : s.tx.cnt.toNat = (s.tx.cnt - 1#4).toNat + 1 := by
      rw [count_sub_one_toNat hc]
      omega
    have hn9 : (s.tx.cnt - 1#4).toNat ≤ 9 := by omega
    have hlast (h0 : s.tx.cnt - 1#4 = 0#4) : s.tx.sr.getLsbD 0 = true :=
      hprimed 0 (by omega) (by simp [hcnt, h0])
    rw [hm.step hs ha ht hc]
    exact txInv_busy rfl ⟨hn9, hpos, le_rfl, primed_shift hcnt hprimed, hlast⟩ rfl
  · obtain ⟨-, -, -, -, hstop⟩ := hbusy ha
    rw [hm.stop hs ha ht hc]
    exact txInv_idle rfl ⟨hc, rfl, hstop hc, hline.symm.trans (hstop hc)⟩

/-- Every tick keeps the invariant, whatever is presented in it. -/
theorem tick_inv {s : State} (h : s.Inv) (r : Option Request) : (s.tick r).Inv := by
  obtain ⟨hwf, hrx, htx⟩ := h
  cases hr : s.rstNow
  · have hrun (g : Option Request) : (s.runTick g).Inv := by
      obtain ⟨⟨hrecv, -, -⟩, -, hsend⟩ := runTick_moves s g
      exact ⟨hwf, receiverMoves_rxInv (s := s) hrecv hwf hrx,
        transmitterMoves_txInv (s := s) hsend hwf htx⟩
    cases hp : s.cmdReady
    · rw [tick_closed hr hp]; exact hrun none
    · rw [tick_open hr hp]; exact hrun r
  · rw [tick_reset hr]
    exact inv_of_atReset hwf (resetTick_atReset s)

/-- An instruction's meaning is one tick: a command's of the state itself, a frame's of the state whose
line it drives. -/
theorem exec_is_tick (i : Instr) (s : State) :
    (∃ r, exec i s = .next (s.tick r)) ∨ ∃ F, exec i s = .next ((s.driveWord F).tick none) := by
  cases i with
  | frame b => exact .inr ⟨_, exec_frame b s⟩
  | _ => exact .inl ⟨_, exec_command rfl s⟩

/-- Settles O37: a step and an instruction each make one tick (`tick_inv`), and neither the host's move
nor a driven line touches a field of the invariant. -/
theorem everyTickKeepsTheInvariant : Obligations.EveryTickKeepsTheInvariant := by
  constructor
  · intro s t h hstep
    obtain rfl : settleHost s (s.tick s.requestNow) = t := by simpa [step_eq] using hstep
    exact tick_inv h s.requestNow
  · intro i s t h hexec
    rcases exec_is_tick i s with ⟨r, hi⟩ | ⟨F, hi⟩
    · obtain rfl : s.tick r = t := by simpa [hi] using hexec
      exact tick_inv h r
    · obtain rfl : (s.driveWord F).tick none = t := by simpa [hi] using hexec
      exact tick_inv (s := s.driveWord F) h none

/-! #### A whole step: transmitter, acceptance, mailbox -/

/-- The transmitter after a step without reset: an unstalled tick hands it the byte the host asks to
send, which it heeds only where it is idle, and then the port is open. -/
theorem after_tx {s : State} (h : s.rstNow = false) :
    s.after.tx = if s.stall then s.tx
      else transmitterTick s.cfg (s.requestNow.getD quietRequest).send s.tx := by
  cases hs : s.stall
  · cases ha : s.tx.active
    · rw [State.after, tick_open h ((cmdReady_iff s).mpr ⟨ha, hs⟩)]
      simp [hs]
    · rw [after_tx_busy h hs ha]
      simp [transmitterTick, ha]
  · rw [after_tx_stalled h hs, if_pos rfl]

theorem after_transmitterMoves {s : State} (h : s.rstNow = false) :
    TransmitterMoves (s.requestNow.getD quietRequest).send s s.after :=
  transmitterMoves_of (after_tx h)

/-- Without reset a command is accepted when one is presented and the port is open (40_host_port
R111). -/
theorem after_accepted {s : State} (h : s.rstNow = false) :
    s.after.accepted = (s.cmdReady && s.requestNow.isSome) := by
  cases hr : s.cmdReady
  · simp [State.after, tick_closed h hr]
  · simp [State.after, tick_open h hr]

theorem requestOf_isSome (s : State) {i : Instr} (h : i.isCommand = true) :
    (requestOf s i).isSome = true := by
  cases i with
  | frame b => exact absurd h (by simp [Instr.isCommand])
  | _ => rfl

/-- Opcodes 4 and 5 are those that ask for a clear (30_encoding R94; 10_state R39). -/
theorem requestOf_clear_iff (s : State) (w : CmdWord) :
    ((requestOf s (decodeCommand w)).getD quietRequest).clear = true ↔
      opBits w = 0x400#11 ∨ opBits w = 0x500#11 := by
  rw [opBits_eq, decodeCommand]
  generalize opField w = o
  have hop : o = 0#3 ∨ o = 1#3 ∨ o = 2#3 ∨ o = 3#3 ∨ o = 4#3 ∨ o = 5#3 ∨ o = 6#3 ∨ o = 7#3 := by
    revert o; decide
  rcases hop with rfl | rfl | rfl | rfl | rfl | rfl | rfl | rfl <;>
    simp [requestOf, quietRequest, commandWord]

theorem requestNow_clear_iff (s : State) :
    (s.requestNow.getD quietRequest).clear = true ↔ s.ClearPresented := by
  unfold State.requestNow State.ClearPresented
  cases s.host.presents with
  | none => simp [quietRequest]
  | some w => simp [requestOf_clear_iff]

/-- A clear reaches the mailbox exactly when the command that asks for it is accepted. -/
theorem clears_iff_accepted {s : State} (h : s.rstNow = false) :
    (s.cmdReady && (s.requestNow.getD quietRequest).clear) = true ↔
      s.after.accepted = true ∧ s.ClearPresented := by
  have hsome : s.ClearPresented → s.requestNow.isSome = true := by
    rintro ⟨w, hw, -⟩
    simp [State.requestNow, hw, requestOf_isSome s (decodeCommand_isCommand w)]
  rw [after_accepted h, Bool.and_eq_true, Bool.and_eq_true, requestNow_clear_iff]
  exact ⟨fun ⟨hr, hc⟩ => ⟨⟨hr, hsome hc⟩, hc⟩, fun ⟨⟨hr, _⟩, hc⟩ => ⟨hr, hc⟩⟩

/-- Settles O41: the mailbox after a step is `boxAfter`, with a clear only where it is accepted. -/
theorem mailboxChangesByPublicationAndClearOnly :
    Obligations.MailboxChangesByPublicationAndClearOnly := by
  intro s h
  have hbox := after_box h
  refine ⟨s.after, step_eq s, fun hp => ?_, fun hp => ?_, fun hp hacc hcl => ?_, fun hp hno => ?_⟩
  · rw [hbox, boxAfter_publishing hp]
  · exact after_byte_silent h hp
  · rw [hbox, boxAfter_silent hp, (clears_iff_accepted h).mpr ⟨hacc, hcl⟩]
    rfl
  · rw [← clears_iff_accepted h] at hno
    rw [hbox, boxAfter_silent hp, if_neg hno]

/-! #### Positions -/

/-- Settles O39: each move that can be due, of either engine, is one of the disjuncts. -/
theorem positionsChangeByOneOfFourMoves : Obligations.PositionsChangeByOneOfFourMoves := by
  intro s h
  have hr := after_receiverMoves h
  have hm := after_transmitterMoves h
  refine ⟨s.after, step_eq s, ?_, ?_⟩
  · rcases receiver_move_due s with ⟨ha, hp⟩ | ⟨ha, hp⟩ | ⟨ha, ht⟩ | ⟨ha, ht, hc⟩ | hp
    · rw [hr.start ha hp]
      exact .inr (.inl ⟨ha, rfl, rfl, rfl⟩)
    · rw [hr.idle ha hp]
      exact .inl ⟨ha, ha, rfl, rfl⟩
    · rw [hr.count ha ht]
      exact .inr (.inr (.inl ⟨ha, ht, ha, rfl, rfl⟩))
    · rw [hr.sample ha ht hc]
      exact .inr (.inr (.inr (.inl ⟨ha, ht, hc, rfl, rfl, rfl⟩)))
    · rw [hr.publish hp]
      obtain ⟨ha, ht, hc⟩ := hp
      exact .inr (.inr (.inr (.inr ⟨ha, ht, hc, rfl, rfl, rfl⟩)))
  · rcases transmitter_move_due s with
      hs | ⟨hs, ha⟩ | ⟨hs, ha, ht⟩ | ⟨hs, ha, ht, hc⟩ | ⟨hs, ha, ht, hc⟩
    · rw [hm.stalled hs]
      exact .inl ⟨.inr hs, rfl, rfl, rfl⟩
    · cases hsend : (s.requestNow.getD quietRequest).send with
      | none =>
        rw [hm.idle hs ha hsend]
        exact .inl ⟨.inl ha, rfl, rfl, rfl⟩
      | some d =>
        rw [hm.start hs ha d hsend]
        exact .inr (.inl ⟨hs, ha, rfl, rfl, rfl⟩)
    · rw [hm.count hs ha ht]
      exact .inr (.inr (.inl ⟨hs, ha, ht, ha, rfl, rfl⟩))
    · rw [hm.step hs ha ht hc]
      exact .inr (.inr (.inr (.inl ⟨hs, ha, ht, hc, rfl, rfl, rfl⟩)))
    · rw [hm.stop hs ha ht hc]
      exact .inr (.inr (.inr (.inr ⟨hs, ha, ht, hc, rfl, hc, rfl⟩)))

/-! #### The last publication -/

/-- A set flag after a step means that no reset was applied, and that the byte was published in this
tick or stands, flag and all, from before it. -/
theorem after_ready_inv {s : State} (h : s.after.box.ready = true) :
    s.rstNow = false ∧
      ((s.Publishing ∧ s.after.box.byte = s.sampled) ∨
        (s.box.ready = true ∧ s.after.box.byte = s.box.byte)) := by
  cases hr : s.rstNow with
  | true => simp [State.after, tick_reset hr] at h
  | false =>
    refine ⟨rfl, ?_⟩
    by_cases hp : s.Publishing
    · exact .inl ⟨hp, by rw [after_box hr, boxAfter_publishing hp]⟩
    · refine .inr ⟨?_, after_byte_silent hr hp⟩
      rw [after_box hr, boxAfter_silent hp] at h
      split at h
      · simp at h
      · exact h

/-- In the run from `s`, the last publication before tick `n` is in tick `k`, and no reset follows it. -/
structure LastPublication (s : State) (n k : Nat) : Prop where
  before : k < n
  publishing : (s.afterN k).Publishing
  noReset : ∀ j, k ≤ j → j < n → (s.afterN j).rstNow = false
  byte : (s.afterN n).box.byte = (s.afterN k).sampled

/-- Along a run that starts with the flag clear, a set flag has its publication. -/
theorem lastPublication_of_ready {s : State} (hclear : s.box.ready = false) {n : Nat}
    (h : (s.afterN n).box.ready = true) : ∃ k, LastPublication s n k := by
  induction n with
  | zero => exact absurd (hclear.symm.trans h) (by decide)
  | succ n ih =>
    rw [afterN_succ'] at h
    obtain ⟨hr, ⟨hp, hbyte⟩ | ⟨hready, hbyte⟩⟩ := after_ready_inv h
    · refine ⟨n, Nat.lt_succ_self n, hp, fun j hkj hjn => ?_, by rw [afterN_succ', hbyte]⟩
      rwa [show j = n by omega]
    · obtain ⟨k, hk⟩ := ih hready
      refine ⟨k, Nat.lt_succ_of_lt hk.before, hk.publishing, fun j hkj hjn => ?_,
        by rw [afterN_succ', hbyte, hk.byte]⟩
      rcases Nat.lt_succ_iff_lt_or_eq.mp hjn with hj | rfl
      · exact hk.noReset j hkj hj
      · exact hr

/-- Settles O38, from the last publication of the run. -/
theorem setFlagMeansAPublishedByte : Obligations.SetFlagMeansAPublishedByte := by
  intro s t n hclear hrun hready
  obtain rfl := (reaches_iff n s t).mp hrun
  obtain ⟨k, hbefore, hpub, hno, hbyte⟩ := lastPublication_of_ready hclear hready
  refine ⟨k, s.afterN k, hbefore, (reaches_iff _ _ _).mpr rfl, hno k le_rfl hbefore, hpub, hbyte, ?_⟩
  intro j v hkj hjn hv
  obtain rfl := (reaches_iff j s v).mp hv
  exact hno j hkj.le hjn

end Sys2Proof.Proofs

/-! ### The mailbox and the line as memory (20_memory)

What a fetched word does, how a second clear or take meets a cleared flag, and a whole reception: the
rule of its eight sample ticks, from which the eye of 20_memory R81 follows. -/

namespace Sys2Proof.Proofs

open Sys2Proof.Machine

/-! #### The presented word (20_memory R85) -/

/-- `TX_SEND` of a byte, as the opcode bits over the byte (30_encoding R94). -/
theorem commandWord_txSend (d : Byte) : commandWord 0b001#3 d = 0x100#11 ||| d.setWidth 11 := by
  revert d; decide

theorem rspByte_eq_setWidth (r : RspWord) : rspByte r = r.setWidth 8 := by
  ext k hk; simp [rspByte]

/-- With nothing presented a step is a silent tick, and the host moves on. -/
theorem step_of_presents_none {s : State} (h : s.host.presents = none) :
    step s = .next (settleHost s (s.tick none)) := by
  rw [step_eq, State.requestNow, h]; rfl

/-- A silent tick accepts nothing and answers 0, with reset or without. -/
theorem tick_none_record (s : State) : (s.tick none).accepted = false ∧ (s.tick none).rsp = 0#9 := by
  unfold State.tick
  cases s.rstNow <;> simp [quietRequest]

/-- A step with a word on the port is the word's instruction, and the host moves on. -/
theorem step_of_presents_some {s t : State} {w : CmdWord} (hw : s.host.presents = some w)
    (ht : exec (decodeCommand w) s = .next t) : step s = .next (settleHost s t) := by
  simp only [step, hw, ht, mapNext]

/-- Settles O11: the two cases of the port, and what each host operation puts on it. -/
theorem stepRunsThePresentedInstruction : Obligations.StepRunsThePresentedInstruction := by
  refine ⟨fun s t w => step_of_presents_some, fun s h => ?_, fun vars => rfl, ?_⟩
  · exact ⟨_, step_of_presents_none h, tick_none_record s⟩
  · intro rest vars w b n r
    refine ⟨rfl, rfl, rfl, congrArg some (by decide), ?_, rfl⟩
    simp [HostAgent.presents, rspByte_eq_setWidth, commandWord_txSend]

/-! #### The fetched word (log entries 6 and 10) -/

/-- The block's tick does not read the host. -/
theorem tick_withHost (s : State) (h : HostAgent) (r : Option Request) :
    State.tick r { s with host := h } = { s.tick r with host := h } := by
  have hnow : State.rstNow { s with host := h } = s.rstNow := rfl
  simp only [State.tick, hnow]
  split <;> rfl

/-- A host that the tick moves on to that of `s` leaves the tick of `s`. -/
theorem settleHost_tick_withHost {s : State} {h : HostAgent}
    (hadv : ∀ accepted rsp, h.advance accepted rsp = s.host) (r : Option Request) :
    settleHost { s with host := h } (State.tick r { s with host := h }) = s.tick r := by
  rw [tick_withHost, settleHost, hadv, ← tick_host s r]

/-- What an instruction asks for does not depend on the host. -/
theorem requestOf_withHost (s : State) (h : HostAgent) (i : Instr) :
    requestOf { s with host := h } i = requestOf s i := by
  cases i <;> rfl

/-- A word offered in this one tick runs as its instruction, and the host is as before. -/
theorem step_offer (s : State) (w : CmdWord) :
    step { s with host := { s.host with ops := .offer w :: s.host.ops } } =
      exec (decodeCommand w) s := by
  rw [step_eq, exec_command (decodeCommand_isCommand w),
    ← settleHost_tick_withHost (h := { s.host with ops := .offer w :: s.host.ops }) fun _ _ => rfl,
    ← requestOf_withHost]
  rfl

/-- A quiet entry passes in a silent tick, and the host is as before. -/
theorem step_quiet (s : State) :
    step { s with host := { s.host with ops := .quiet :: s.host.ops } } = .next (s.tick none) := by
  rw [step_of_presents_none rfl, settleHost_tick_withHost fun _ _ => rfl]

/-- Settles O12: a command word is offered, and a frame word is driven with the host quiet. -/
theorem fetchedWordRunsNext : Obligations.FetchedWordRunsNext := by
  refine fun s => ⟨fun w _ => step_offer s _, fun w _ => step_offer s _, fun b => ?_⟩
  have hword : BitVec.ofNat 10 (encode (.frame b)) = frameWord b := by simp [encode]
  have hfetch : s.withFetchWord 10 (encode (.frame b)) =
      { s.driveWord (frameWord b) with host := { s.host with ops := .quiet :: s.host.ops } } := by
    rw [← hword]; rfl
  rw [hfetch, exec_frame]
  exact step_quiet (s.driveWord (frameWord b))

/-! #### A second clear, a second take (20_memory R79) -/

/-- On an open port a command's meaning is the tick that grants its request. -/
theorem exec_open {i : Instr} {s : State} (hi : i.isCommand = true) (h : s.PortOpen) :
    exec i s = .next (s.runTick (requestOf s i)) := by
  rw [exec_command hi, tick_open h.1 (PortOpen.ready h)]

/-- A granted clear with no publication in its tick leaves the byte, with the flag cleared. -/
theorem runTick_box_of_clear {s : State} {r : Request} (hr : r.clear = true) (hp : ¬ s.Publishing) :
    (s.runTick (some r)).box = { byte := s.box.byte, ready := false } := by
  obtain ⟨-, hbox, -⟩ := runTick_moves s (some r)
  rw [hbox, boxAfter_silent hp, Option.getD_some, hr, if_pos rfl]

/-- Settles O25: the first command leaves the flag clear and the byte as it was, so the second finds
nothing to change, and the second take answers that flag. -/
theorem clearIsIdempotentAndTakeIsNot : Obligations.ClearIsIdempotentAndTakeIsNot := by
  intro s d d' ho hp
  refine ⟨⟨_, exec_open rfl ho, ?_, fun ho' hp' => ⟨_, exec_open rfl ho', ?_, rfl⟩⟩,
    ⟨_, exec_open rfl ho, rspFlag_rspWord _ _, fun ho' hp' => ⟨_, exec_open rfl ho', ?_, ?_⟩⟩⟩
  · rw [requestOf, runTick_box_of_clear rfl hp]
  · rw [requestOf, runTick_box_of_clear rfl hp', requestOf, runTick_box_of_clear rfl hp]
  · rw [requestOf, runTick_rsp, Option.getD_some, rspFlag_rspWord, requestOf,
      runTick_box_of_clear rfl hp]
  · rw [requestOf, runTick_box_of_clear rfl hp', requestOf, runTick_box_of_clear rfl hp]

/-! #### A whole reception (20_memory R73) -/

/-- The tick of sample `k`, counted from the detection (20_memory R73; 41_receiver R132). -/
def sampleTick (c : Config) (k : Nat) : Nat := startDelay c + k * c.bitPeriod

/-- `acc` is the accumulator of the reception that starts in `s` after `k` samples: they are its top
`k` bits, the oldest lowest, over what is left of the old accumulator (41_receiver R133). -/
def HoldsSamples (s : State) (k : Nat) (acc : Byte) : Prop :=
  ∀ i : Nat, i < 8 → acc.getLsbD i =
    if i + k < 8 then s.rx.acc.getLsbD (i + k) else s.lineAt (sampleTick s.cfg (i + k - 8))

/-- The receiver in the reception that starts in `s`, `k` samples taken and the next one in
`ticks` ticks, this one included. -/
structure Receiving (s : State) (k ticks : Nat) (rx : Receiver) : Prop where
  active : rx.active = true
  timer : rx.timer = ticks
  cnt : rx.cnt.toNat = 8 - k
  acc : HoldsSamples s k rx.acc

theorem holdsSamples_zero (s : State) : HoldsSamples s 0 s.rx.acc := by
  intro i hi
  rw [if_pos (by omega), Nat.add_zero]

/-- The next sample enters at the top, and all others move down one place (41_receiver R131). -/
theorem HoldsSamples.sampled {s u : State} {k : Nat} (h : HoldsSamples s k u.rx.acc)
    (hline : u.lineNow = s.lineAt (sampleTick s.cfg k)) : HoldsSamples s (k + 1) u.sampled := by
  intro i hi
  rw [sampled_getLsbD u i hi]
  by_cases h7 : i = 7
  · rw [if_pos h7, hline, if_neg (by omega), show i + (k + 1) - 8 = k by omega]
  · rw [if_neg h7, h (i + 1) (by omega), show i + 1 + k = i + (k + 1) by omega]

/-- After eight samples nothing of the old accumulator is left. -/
theorem HoldsSamples.all {s : State} {acc : Byte} (h : HoldsSamples s 8 acc) {i : Nat} (hi : i < 8) :
    acc.getLsbD i = s.lineAt (sampleTick s.cfg i) := by
  rw [h i hi, if_neg (by omega), Nat.add_sub_cancel]

section
variable {s : State}

/-- An edge or a left-over latch starts a reception: the first sample is `START_DELAY` ticks away. -/
theorem receiving_start (hr : s.rstNow = false) (ha : s.rx.active = false) (hp : s.Pending) :
    Receiving s 0 (startDelay s.cfg) (s.afterN 1).rx := by
  rw [show s.afterN 1 = s.after from rfl, (after_receiverMoves hr).start ha hp]
  exact ⟨rfl, rfl, rfl, holdsSamples_zero s⟩

/-- Between samples the timer counts down and the reception stands (41_receiver R129). -/
theorem receiving_count {k n m : Nat} (hno : s.noResetFor (n + m))
    {ticks : Nat} (h : Receiving s k (ticks + m) (s.afterN n).rx) (hpos : 0 < ticks) :
    Receiving s k ticks (s.afterN (n + m)).rx := by
  induction m generalizing ticks with
  | zero => exact h
  | succ m ih =>
    have hprev : Receiving s k (ticks + 1) (s.afterN (n + m)).rx :=
      ih (fun j hj => hno j (by omega)) (by rwa [show ticks + 1 + m = ticks + (m + 1) by omega])
        (Nat.succ_pos ticks)
    have hr : (s.afterN (n + m)).rstNow = false := afterN_rstNow hno (by omega)
    have hcount := (after_receiverMoves hr).count hprev.active (by rw [hprev.timer]; omega)
    rw [← Nat.add_assoc, afterN_succ', hcount]
    exact ⟨hprev.active, by simp [hprev.timer], hprev.cnt, hprev.acc⟩

/-- A sample with more to come: the next one is a bit period away (41_receiver R131). -/
theorem receiving_sample {k : Nat} (hr : (s.afterN (sampleTick s.cfg k)).rstNow = false)
    (h : Receiving s k 1 (s.afterN (sampleTick s.cfg k)).rx) (hk : k < 7) :
    Receiving s (k + 1) s.cfg.bitPeriod (s.afterN (sampleTick s.cfg k + 1)).rx := by
  have hcnt := h.cnt
  have hmove := (after_receiverMoves hr).sample h.active h.timer.le (by omega)
  rw [afterN_succ', hmove]
  refine ⟨rfl, by simp, ?_, h.acc.sampled (afterN_lineNow _ s)⟩
  rw [count_sub_one_toNat (by omega)]
  omega

theorem sampleTick_zero (c : Config) : sampleTick c 0 = startDelay c := by simp [sampleTick]

theorem sampleTick_succ (c : Config) (k : Nat) :
    sampleTick c (k + 1) = sampleTick c k + c.bitPeriod := by
  rw [sampleTick, Nat.succ_mul, ← Nat.add_assoc, ← sampleTick]

/-- The last sample is the one that publishes (41_receiver R143). -/
theorem sampleTick_seven (c : Config) : sampleTick c 7 = receptionTicks c := rfl

theorem sampleTick_le (c : Config) {k : Nat} (hk : k < 8) : sampleTick c k ≤ receptionTicks c :=
  Nat.add_le_add_left (Nat.mul_le_mul_right _ (Nat.le_of_lt_succ hk)) _

/-- In the tick of each of its eight samples, a reception holds the samples of the ticks before. -/
theorem receiving_at_sampleTick (hwf : s.cfg.WF) (ha : s.rx.active = false) (hp : s.Pending)
    (hno : s.noResetFor (receptionTicks s.cfg + 1)) {k : Nat} (hk : k < 8) :
    Receiving s k 1 (s.afterN (sampleTick s.cfg k)).rx := by
  have hpos : 2 ≤ s.cfg.bitPeriod := hwf.2
  induction k with
  | zero =>
    have hr : s.rstNow = false := afterN_rstNow (n := 0) hno (Nat.succ_pos _)
    have hstart := receiving_start hr ha hp
    have hdelay : startDelay s.cfg = 1 + (startDelay s.cfg - 1) := by unfold startDelay; omega
    have hle := sampleTick_le s.cfg hk
    rw [sampleTick_zero] at hle ⊢
    rw [hdelay] at hstart ⊢
    exact receiving_count (fun j hj => hno j (by omega)) hstart Nat.one_pos
  | succ k ih =>
    have hle := sampleTick_le s.cfg hk
    have hlast := sampleTick_succ s.cfg k
    have hnext := receiving_sample (afterN_rstNow hno (by omega)) (ih (by omega)) (by omega)
    rw [show s.cfg.bitPeriod = 1 + (s.cfg.bitPeriod - 1) by omega] at hnext
    rw [show sampleTick s.cfg (k + 1) = sampleTick s.cfg k + 1 + (s.cfg.bitPeriod - 1) by omega]
    exact receiving_count (fun j hj => hno j (by omega)) hnext Nat.one_pos

end

/-- Settles O42: the eighth sample publishes, with the eight samples in the accumulator and the last
bit of the old one on its way to the carry. -/
theorem receptionPublishesTheEightSamples : Obligations.ReceptionPublishesTheEightSamples := by
  intro s hwf ha hp hno
  have hlast := receiving_at_sampleTick hwf ha hp hno (k := 7) (by omega)
  rw [sampleTick_seven] at hlast
  have hr : (s.afterN (receptionTicks s.cfg)).rstNow = false := afterN_rstNow hno (Nat.lt_succ_self _)
  have hpub : (s.afterN (receptionTicks s.cfg)).Publishing :=
    ⟨hlast.active, hlast.timer.le, hlast.cnt.le⟩
  have hbox := after_box hr
  rw [boxAfter_publishing hpub] at hbox
  have hrx := (after_receiverMoves hr).publish hpub
  have hall := hlast.acc.sampled (afterN_lineNow _ s)
  refine ⟨s.afterN (receptionTicks s.cfg + 1), (reaches_iff _ _ _).mpr rfl, ?_⟩
  rw [afterN_succ', hbox, hrx]
  exact ⟨rfl, fun k hk => hall.all hk, rfl, rfl, hlast.acc 0 (by omega)⟩

/-! #### The eye of a reception (20_memory R81) -/

/-- The level of a frame that begins in tick 0, at its own bit period. -/
theorem stimulusLevel_frame (bp p t : Nat) (b : Byte) :
    stimulusLevel bp [.frame b 0 (some p)] t =
      if t < 10 * p then (frameWord b).getLsbD (t / p) else true := by
  simp only [stimulusLevel, List.foldl, lineStmtLevel, Option.getD_some]
  by_cases ht : t < 10 * p <;> simp [ht]

/-- A schedule cut from a stimulus carries its levels. -/
theorem stimulusLevels_getD (bp : Nat) (stimulus : List LineStmt) {n t : Nat} (ht : t < n) :
    (stimulusLevels bp stimulus n).getD t true = stimulusLevel bp stimulus t := by
  simp [stimulusLevels, List.getD_eq_getElem?_getD, ht]

/-- At the default bit period a frame that falls on an idle receiver is published as its wave at the
eight sample ticks, whatever the peer's bit period. -/
theorem publishes_wave_at_sampleTicks {s : State} {p : Nat} {b : Byte} (hperiod : s.cfg.bitPeriod = 104)
    (ha : s.rx.active = false) (hprev : s.rx.prev = true) (hno : s.noResetFor 885) (hp : 0 < p)
    (hline : ∀ j < 885, s.lineAt j = stimulusLevel 104 [.frame b 0 (some p)] j) :
    ∃ t, Reaches 885 s t ∧ ∀ k : Nat, k < 8 →
      t.box.byte.getLsbD k = stimulusLevel 104 [.frame b 0 (some p)] (156 + k * 104) := by
  have hticks : receptionTicks s.cfg + 1 = 885 := by simp [receptionTicks, startDelay, hperiod]
  have hlow : s.lineNow = false := by
    rw [show s.lineNow = _ from afterN_lineNow 0 s, hline 0 (by omega), stimulusLevel_frame,
      if_pos (by omega), Nat.zero_div, frameWord_getLsbD b 0 (by omega), if_pos rfl]
  have hwf : s.cfg.WF := by simp [Config.WF, hperiod]
  obtain ⟨t, ht, -, hbits, -⟩ := receptionPublishesTheEightSamples s hwf ha (.inr ⟨hprev, hlow⟩)
    (by rwa [hticks])
  rw [hticks] at ht
  rw [hperiod] at hbits
  exact ⟨t, ht, fun k hk => (hbits k hk).trans (hline _ (by omega))⟩

/-- A block at the default bit period on whose line a peer of bit period `p` sends `b`. -/
def facingPeer (preempts : Bool) (p : Nat) (b : Byte) : State :=
  { State.reset with cfg := { bitPeriod := 104, rxPreempts := preempts },
                     rxIn := stimulusLevels 104 [.frame b 0 (some p)] 885 }

theorem facingPeer_publishes (preempts : Bool) {p : Nat} (hp : 0 < p) (b : Byte) :
    ∃ t, Reaches 885 (facingPeer preempts p b) t ∧ ∀ k : Nat, k < 8 →
      t.box.byte.getLsbD k = stimulusLevel 104 [.frame b 0 (some p)] (156 + k * 104) :=
  publishes_wave_at_sampleTicks rfl rfl rfl (fun j _ => by simp [facingPeer, State.reset]) hp
    fun j hj => by rw [State.lineAt, facingPeer, stimulusLevels_getD 104 _ hj]

/-- From 99 to 110 ticks a bit, sample `k` falls in slot `k + 1`, which carries bit `k`. -/
theorem stimulusLevel_in_eye {p k : Nat} (hmin : 99 ≤ p) (hmax : p ≤ 110) (hk : k < 8) (b : Byte) :
    stimulusLevel 104 [.frame b 0 (some p)] (156 + k * 104) = b.getLsbD k := by
  have hfrom : (k + 1) * p ≤ 156 + k * 104 := by
    have := Nat.mul_le_mul_left (k + 1) hmax
    omega
  have hto : 156 + k * 104 < (k + 1 + 1) * p := by
    have := Nat.mul_le_mul_left (k + 1 + 1) hmin
    omega
  rw [stimulusLevel_frame, if_pos (by omega), Nat.div_eq_of_lt_le hfrom hto,
    frameWord_getLsbD b (k + 1) (by omega), if_neg (by omega), if_neg (by omega),
    Nat.add_sub_cancel]

/-- A peer too fast is past its data by the last sample, which reads 1. -/
theorem stimulusLevel_below_eye {p : Nat} (hp : 0 < p) (hp' : p < 99) :
    stimulusLevel 104 [.frame 0x00#8 0 (some p)] (156 + 7 * 104) = true := by
  rw [stimulusLevel_frame]
  split
  · have hslot : (156 + 7 * 104) / p = 9 := Nat.div_eq_of_lt_le (by omega) (by omega)
    rw [hslot]; rfl
  · rfl

/-- A peer too slow has not come to its last data bit by the last sample. -/
theorem stimulusLevel_above_eye {p : Nat} (hp : 110 < p) :
    stimulusLevel 104 [.frame 0x80#8 0 (some p)] (156 + 7 * 104) = false := by
  have hslot : (156 + 7 * 104) / p < 8 := Nat.div_lt_of_lt_mul (by omega)
  have hzero : ∀ i < 8, (frameWord 0x80#8).getLsbD i = false := by decide
  rw [stimulusLevel_frame, if_pos (by omega), hzero _ hslot]

/-- Settles O47: inside the eye every sample falls in its own slot; outside it the last one reads bit 7
of `0x00` as 1 or bit 7 of `0x80` as 0. -/
theorem peerPeriodMustLieInTheEye : Obligations.PeerPeriodMustLieInTheEye := by
  intro preempts p hp
  constructor
  · rintro ⟨hmin, hmax⟩ b
    obtain ⟨t, ht, hbits⟩ := facingPeer_publishes preempts hp b
    refine ⟨t, BitVec.eq_of_getLsbD_eq fun k hk => ?_, ht⟩
    rw [hbits k hk, stimulusLevel_in_eye hmin hmax hk]
  · intro hall
    have hlast (b : Byte) :
        b.getLsbD 7 = stimulusLevel 104 [.frame b 0 (some p)] (156 + 7 * 104) := by
      obtain ⟨t, rfl, ht⟩ := hall b
      obtain ⟨u, hu, hbits⟩ := facingPeer_publishes preempts hp t.box.byte
      have htu : t = u := ((reaches_iff _ _ _).mp ht).trans ((reaches_iff _ _ _).mp hu).symm
      rw [htu] at hbits ⊢
      exact hbits 7 (by omega)
    constructor
    · by_contra hmin
      have := (hlast 0x00#8).trans (stimulusLevel_below_eye hp (by omega))
      simp at this
    · by_contra hmax
      have := (hlast 0x80#8).trans (stimulusLevel_above_eye (by omega))
      simp at this

end Sys2Proof.Proofs

/-! ### The encodings, and what the host and the line drive (30_encoding)

The two decoders against the encoder, the frame in time, and then the environment's side: a frame put on
the receive line, the host's move after a tick, its pseudo-statements and the stimulus. -/

namespace Sys2Proof.Proofs

open Sys2Proof.Machine

/-! #### The command words (R93, R94, R99) -/

/-- A word's opcode bits say which opcode stands over its low byte. -/
theorem eq_commandWord_of_opBits {w : CmdWord} {o : BitVec 3} (h : opBits w = commandWord o 0#8) :
    w = commandWord o (w.setWidth 8) := by
  have hop : opField w = o := by
    simpa using congrArg opField ((opBits_eq w).symm.trans h)
  rw [← dataField_eq_setWidth, ← hop, commandWord_fields]

theorem instrWord_of_encode {i : Instr} {w : CmdWord} (h : encode i = w.toNat) : instrWord i = w := by
  rw [instrWord, h, BitVec.ofNat_toNat, BitVec.setWidth_eq]

theorem encode_lt {i : Instr} (hi : i.isCommand = true) : encode i < 2 ^ 11 := by
  cases i with
  | frame b => exact absurd hi (by simp [Instr.isCommand])
  | _ => exact BitVec.isLt _

theorem instrWord_toNat {i : Instr} (hi : i.isCommand = true) : (instrWord i).toNat = encode i := by
  rw [instrWord, BitVec.toNat_ofNat, Nat.mod_eq_of_lt (encode_lt hi)]

/-- The opcode map undoes the encoder, opcode by opcode. -/
theorem decodeCommand_of_encode {i : Instr} {w : CmdWord} (hi : i.isCommand = true)
    (h : encode i = w.toNat) : decodeCommand w = i := by
  obtain rfl := instrWord_of_encode h
  cases i with
  | frame b => exact absurd hi (by simp [Instr.isCommand])
  | _ => simp [instrWord, encode, decodeCommand]

theorem encode_of_opBits {w : CmdWord} {i : Instr} {o : BitVec 3}
    (hi : encode i = (commandWord o (w.setWidth 8)).toNat) (h : opBits w = commandWord o 0#8) :
    encode i = w.toNat := by
  rw [hi, ← eq_commandWord_of_opBits h]

/-- Every command word is the encoding of a command: its opcode bits say of which. -/
theorem exists_encode (w : CmdWord) : ∃ i : Instr, i.isCommand = true ∧ encode i = w.toNat := by
  rcases opBits_cases w with h | h | h | h | h | h | h | h
  · exact ⟨.nop _, rfl, encode_of_opBits (o := 0b000#3) rfl h⟩
  · exact ⟨.txSend _, rfl, encode_of_opBits (o := 0b001#3) rfl h⟩
  · exact ⟨.rxStatus _, rfl, encode_of_opBits (o := 0b010#3) rfl h⟩
  · exact ⟨.rxRead _, rfl, encode_of_opBits (o := 0b011#3) rfl h⟩
  · exact ⟨.rxClear _, rfl, encode_of_opBits (o := 0b100#3) rfl h⟩
  · exact ⟨.rxTake _, rfl, encode_of_opBits (o := 0b101#3) rfl h⟩
  · exact ⟨.rsv6 _, rfl, encode_of_opBits (o := 0b110#3) rfl h⟩
  · exact ⟨.rsv7 _, rfl, encode_of_opBits (o := 0b111#3) rfl h⟩

/-! #### Raw numbers (log entry 6) -/

/-- Read at a width of the command port, the number of a command word decodes by the opcode map. -/
theorem decodeTableWord_command {n : Nat} (hn : isLineWidth n = false) (w : CmdWord) :
    decodeTableWord n w.toNat = some (decodeCommand w) := by
  simp [decodeTableWord, decodeRaw, hn, w.isLt]

/-- A number above 11 bits is no command word. -/
theorem decodeTableWord_command_none {n w : Nat} (hn : isLineWidth n = false) (hw : 2048 ≤ w) :
    decodeTableWord n w = none := by
  simp [decodeTableWord, decodeRaw, hn, Nat.not_lt.mpr hw]

/-- Read at a width of the serial line, the number of a frame word decodes by the frame decoder. -/
theorem decodeRaw_line {n : Nat} (hn : isLineWidth n = true) (F : FrameWord) :
    decodeRaw n F.toNat = decodeFrame F := by
  simp [decodeRaw, hn, F.isLt]

/-! #### The frame words (R90) -/

theorem decodeFrame_start_high {F : FrameWord} (h0 : F.getLsbD 0 = true) :
    decodeFrame F = .error .startNotLow := by
  rw [decodeFrame, if_pos h0]

theorem decodeFrame_stop_low {F : FrameWord} (h0 : F.getLsbD 0 = false) (h9 : F.getLsbD 9 = false) :
    decodeFrame F = .error .stopNotHigh := by
  rw [decodeFrame, h0, h9]; rfl

theorem decodeFrame_data {F : FrameWord} (h0 : F.getLsbD 0 = false) (h9 : F.getLsbD 9 = true) :
    decodeFrame F = .ok (.frame (F.extractLsb' 1 8)) := by
  rw [decodeFrame, h0, h9]; rfl

/-- Slots 1 to 8 of a frame carry the byte. -/
theorem frameWord_data (b : Byte) : (frameWord b).extractLsb' 1 8 = b := by
  apply BitVec.eq_of_getLsbD_eq
  intro k hk
  rw [BitVec.getLsbD_extractLsb', frameWord_getLsbD b (1 + k) (by omega), if_neg (by omega),
    if_neg (by omega), Nat.add_sub_cancel_left, decide_eq_true hk, Bool.true_and]

theorem decodeFrame_frameWord (b : Byte) : decodeFrame (frameWord b) = .ok (.frame b) := by
  have h0 : (frameWord b).getLsbD 0 = false := frameWord_getLsbD b 0 (by omega)
  have h9 : (frameWord b).getLsbD 9 = true := frameWord_getLsbD b 9 (by omega)
  rw [decodeFrame_data h0 h9, frameWord_data]

/-- The start slot of a number's frame word is its parity. -/
theorem startSlot_ofNat (w : Nat) : (BitVec.ofNat 10 w).getLsbD 0 = decide (w % 2 = 1) := by
  rw [BitVec.getLsbD_ofNat, Nat.testBit_zero]; rfl

/-- The stop slot of a number's frame word says whether it is in the upper half. -/
theorem stopSlot_ofNat {w : Nat} (hw : w < 1024) :
    (BitVec.ofNat 10 w).getLsbD 9 = decide (512 ≤ w) := by
  rw [BitVec.getLsbD_ofNat, Nat.testBit_eq_decide_div_mod_eq, decide_eq_true (by omega : 9 < 10),
    Bool.true_and, decide_eq_decide]
  omega

/-- The data slots of a number's frame word are the number without its parity. -/
theorem dataSlots_ofNat {w : Nat} (hw : w < 1024) :
    (BitVec.ofNat 10 w).extractLsb' 1 8 = BitVec.ofNat 8 (w / 2) := by
  apply BitVec.eq_of_toNat_eq
  rw [BitVec.extractLsb'_toNat, BitVec.toNat_ofNat, Nat.mod_eq_of_lt hw, BitVec.toNat_ofNat,
    Nat.shiftRight_eq_div_pow, Nat.pow_one]

/-- A command, encoded, is read back at every width of the command port. -/
theorem decode_encode_command {n : Nat} (hn : isLineWidth n = false) {i : Instr}
    (hi : i.isCommand = true) : decodeTableWord n (encode i) = some i := by
  rw [← instrWord_toNat hi, decodeTableWord_command hn,
    decodeCommand_of_encode hi (instrWord_toNat hi).symm]

theorem decode_encode_frame (b : Byte) :
    decodeTableWord 10 (encode (.frame b)) = some (.frame b) := by
  rw [decodeTableWord, encode, decodeRaw_line rfl, decodeFrame_frameWord]

/-- Settles O3: a command by the opcode map, at 11 and at 16 bits, and a frame by its slots. -/
theorem decodeOfEncodeIsTheInstruction : Obligations.DecodeOfEncodeIsTheInstruction := by
  refine ⟨fun i _ => ?_, fun i hi => decode_encode_command rfl hi⟩
  cases i with
  | frame b => exact decode_encode_frame b
  | _ => exact decode_encode_command rfl rfl

/-- Settles O4: every command word is the encoding of a command, which decodes back to it. -/
theorem everyCommandWordDecodesAndEncodesBack : Obligations.EveryCommandWordDecodesAndEncodesBack := by
  refine ⟨fun w hw => ?_, fun w hw => decodeTableWord_command_none rfl hw⟩
  obtain ⟨i, hi, henc⟩ := exists_encode (BitVec.ofNat 11 w)
  rw [BitVec.toNat_ofNat, Nat.mod_eq_of_lt hw] at henc
  exact ⟨i, hi, henc ▸ decode_encode_command rfl hi, henc⟩

/-- Settles O5: the start slot is the parity of the number, the stop slot its upper half. -/
theorem frameWordsDecodeExactly : Obligations.FrameWordsDecodeExactly := by
  intro w
  have hraw (hw : w < 1024) : decodeRaw 10 w = decodeFrame (BitVec.ofNat 10 w) := by
    rw [← decodeRaw_line (n := 10) rfl, BitVec.toNat_ofNat, Nat.mod_eq_of_lt hw]
  refine ⟨fun hw h0 h9 => ?_, fun hw h0 => ?_, fun hw h0 => ?_, fun hw => ?_⟩
  · rw [hraw hw, decodeFrame_data ((startSlot_ofNat w).trans (by simp [h0]))
      ((stopSlot_ofNat hw).trans (by simp [h9])), dataSlots_ofNat hw]
  · rw [hraw hw, decodeFrame_start_high ((startSlot_ofNat w).trans (by simp [h0]))]
  · have hw' : w < 1024 := by omega
    rw [hraw hw', decodeFrame_stop_low ((startSlot_ofNat w).trans (by simp [h0]))
      ((stopSlot_ofNat hw').trans (by simp [hw]))]
  · simp [decodeRaw, isLineWidth, Nat.not_lt.mpr hw]

/-- Settles O6, from the laws of `slotLevels` and of the frame word's bits. -/
theorem frameIsTenSlotsLeastSignificantBitFirst :
    Obligations.FrameIsTenSlotsLeastSignificantBitFirst := by
  refine fun period b => ⟨slotLevels_length period _, fun i j hi hj => ?_⟩
  rw [slotLevels_getElem? period i j _ hi hj, frameWord_getLsbD b i hi]

/-- Settles O1: the word is that opcode over its low byte, which is what the command encodes to. -/
theorem opcodeMapDecodesEveryWord : Obligations.OpcodeMapDecodesEveryWord := fun _ =>
  ⟨fun h => decodeCommand_of_encode rfl (encode_of_opBits (o := 0b000#3) rfl h),
    fun h => decodeCommand_of_encode rfl (encode_of_opBits (o := 0b001#3) rfl h),
    fun h => decodeCommand_of_encode rfl (encode_of_opBits (o := 0b010#3) rfl h),
    fun h => decodeCommand_of_encode rfl (encode_of_opBits (o := 0b011#3) rfl h),
    fun h => decodeCommand_of_encode rfl (encode_of_opBits (o := 0b100#3) rfl h),
    fun h => decodeCommand_of_encode rfl (encode_of_opBits (o := 0b101#3) rfl h),
    fun h => decodeCommand_of_encode rfl (encode_of_opBits (o := 0b110#3) rfl h),
    fun h => decodeCommand_of_encode rfl (encode_of_opBits (o := 0b111#3) rfl h)⟩

/-- Settles O2: the words as written are those the encoder gives, so they decode to the instruction. -/
theorem writtenOutWordsDecode : Obligations.WrittenOutWordsDecode :=
  ⟨decode_encode_command (n := 11) (i := .nop 0x5A#8) rfl rfl,
    decode_encode_command (n := 11) (i := .txSend 0x5A#8) rfl rfl,
    decode_encode_command (n := 11) (i := .rxStatus 0x5A#8) rfl rfl,
    decode_encode_command (n := 11) (i := .rxRead 0x5A#8) rfl rfl,
    decode_encode_command (n := 11) (i := .rxClear 0x5A#8) rfl rfl,
    decode_encode_command (n := 11) (i := .rxTake 0x5A#8) rfl rfl,
    decode_encode_command (n := 11) (i := .rsv6 0x5A#8) rfl rfl,
    decode_encode_command (n := 11) (i := .rsv7 0x5A#8) rfl rfl,
    decode_encode_frame 0xA5#8⟩

/-- Settles O7: the two words decode to the same command with two operands, and only `TX_SEND`'s
meaning reads its own. -/
theorem operandIsIgnoredOutsideTxSend : Obligations.OperandIsIgnoredOutsideTxSend := by
  intro w w' s heq hsend
  obtain ⟨nop, -, rxStatus, rxRead, rxClear, rxTake, rsv6, rsv7⟩ := opcodeMapDecodesEveryWord w
  obtain ⟨nop', -, rxStatus', rxRead', rxClear', rxTake', rsv6', rsv7'⟩ :=
    opcodeMapDecodesEveryWord w'
  rcases opBits_cases w with h | h | h | h | h | h | h | h <;> have h' := heq.symm.trans h
  · rw [nop h, nop' h']; rfl
  · exact absurd h hsend
  · rw [rxStatus h, rxStatus' h']; rfl
  · rw [rxRead h, rxRead' h']; rfl
  · rw [rxClear h, rxClear' h']; rfl
  · rw [rxTake h, rxTake' h']; rfl
  · rw [rsv6 h, rsv6' h']; rfl
  · rw [rsv7 h, rsv7' h']; rfl

/-! #### A frame on the receive line (R90, R105) -/

/-- With a slot at least one tick long, a frame's wave begins with its start slot. -/
theorem slotLevels_frame_eq_cons {p : Nat} (hp : 0 < p) (b : Byte) :
    slotLevels p (frameWord b) = false :: (slotLevels p (frameWord b)).tail := by
  have hfirst : (slotLevels p (frameWord b)).head? = some false := by
    have hslot := slotLevels_getElem? p 0 0 (frameWord b) (by omega) hp
    rwa [frameWord_getLsbD b 0 (by omega), if_pos rfl, Nat.zero_mul, ← List.head?_eq_getElem?] at hslot
  exact (List.cons_head?_tail hfirst).symm

/-- Settles O23: the frame's tick is the silent tick of the driven state, whose line is at 0 now and
carries the rest of the wave after. -/
theorem frameBeginsOnTheReceiveLine : Obligations.FrameBeginsOnTheReceiveLine := by
  intro s b hr hp
  have hwave : (s.driveWord (frameWord b)).rxIn =
      false :: ((slotLevels s.cfg.bitPeriod (frameWord b)).tail ++ s.rxIn.drop (frameTicks s.cfg)) := by
    rw [driveWord_rxIn, slotLevels_frame_eq_cons hp b]; rfl
  have hlow : (s.driveWord (frameWord b)).lineNow = false := by
    rw [State.lineNow, hwave]; rfl
  have htick : (s.driveWord (frameWord b)).tick none = (s.driveWord (frameWord b)).runTick none :=
    tick_silent hr
  refine ⟨_, (exec_frame b s).trans (congrArg _ htick), rfl, rfl, ?_, receiverMoves_of ?_, ?_, ?_,
    rfl, rfl, rfl, rfl⟩
  · rw [runTick_rxIn, hwave]; rfl
  · rw [runTick_rx, hlow]; rfl
  · rw [runTick_box, hlow]
    exact mailboxTick_eq_boxAfter { s with rxIn := [false] } false
  · exact transmitterMoves_of rfl

/-! #### The host's move (R102, R103, R104) -/

/-- A step moves the host on by what the tick records. -/
theorem after_host (s : State) : s.after.host = s.host.advance s.after.accepted s.after.rsp := by
  simp [State.after]

/-- An accepted command is answered as it asks, from the pre-state. -/
theorem after_rsp_of_accepted {s : State} (h : s.after.accepted = true) :
    s.after.rsp = (s.requestNow.getD quietRequest).response := by
  cases hr : s.rstNow with
  | true => simp [State.after, tick_reset hr] at h
  | false =>
    rw [after_accepted hr, Bool.and_eq_true] at h
    simp [State.after, tick_open hr h.1]

section
variable {h : HostAgent} {rest : List HostOp} {r : RspWord}

theorem advance_issue_waiting {w : CmdWord} {bind : Option Nat} (hops : h.ops = .issue w bind :: rest) :
    h.advance false r = h := by
  simp [HostAgent.advance, hops]

theorem advance_issue_accepted {w : CmdWord} {bind : Option Nat}
    (hops : h.ops = .issue w bind :: rest) :
    h.advance true r = { ops := rest, vars := bindResponse bind r h.vars } := by
  simp [HostAgent.advance, hops]

theorem advance_poll {accepted : Bool} (hops : h.ops = .poll :: rest) :
    h.advance accepted r = if accepted && rspFlag r then { h with ops := rest } else h := by
  simp [HostAgent.advance, hops]

theorem advance_sendVar {accepted : Bool} {name : Nat} (hops : h.ops = .sendVar name :: rest) :
    h.advance accepted r = if accepted then { h with ops := rest } else h := by
  simp [HostAgent.advance, hops]

/-- An entry for one tick passes whatever comes of it. -/
theorem advance_one_tick {accepted : Bool}
    (hops : h.ops = .quiet :: rest ∨ ∃ w, h.ops = .offer w :: rest) :
    h.advance accepted r = { h with ops := rest } := by
  rcases hops with hops | ⟨w, hops⟩ <;> simp [HostAgent.advance, hops]

end

/-- The newest binding of a name is the one that is read. -/
theorem lookup_bindResponse (name : Nat) (r : RspWord) (vars : List (Nat × RspWord)) :
    (bindResponse (some name) r vars).lookup name = some r := by
  simp [bindResponse]

/-- A poll that is accepted is answered with the flag. -/
theorem poll_response_flag {s : State} {rest : List HostOp} (hops : s.host.ops = .poll :: rest)
    (h : s.after.accepted = true) : rspFlag s.after.rsp = s.box.ready := by
  have hasks : s.requestNow = requestOf s (.rxStatus 0#8) := by
    rw [State.requestNow, HostAgent.presents, hops, Option.bind_some,
      decodeCommand_of_encode (i := .rxStatus 0#8) rfl rfl]
  rw [after_rsp_of_accepted h, hasks]
  exact rspFlag_rspWord _ _

/-- Settles O52: the host after a step is its own move, by operation. -/
theorem hostPresentsUntilAccepted : Obligations.HostPresentsUntilAccepted := by
  intro s rest
  have hhost := after_host s
  refine ⟨s.after, step_eq s, fun w bind hops => ⟨fun hacc => ?_, fun hacc => ?_⟩,
    fun hops => ⟨fun hacc hready => ?_, fun hstay => ?_⟩,
    fun name hops => ⟨fun hacc => ?_, fun hacc => ?_⟩, fun hops => ?_⟩
  · rw [hhost, hacc, advance_issue_waiting hops]
  · rw [hhost, hacc, advance_issue_accepted hops]
    exact ⟨rfl, fun hbind => by rw [hbind]; rfl, fun name hbind => by rw [hbind, lookup_bindResponse]⟩
  · rw [hhost, advance_poll hops, poll_response_flag hops hacc, hacc, hready]; rfl
  · have hfalse : (s.after.accepted && rspFlag s.after.rsp) = false := by
      cases hacc : s.after.accepted with
      | false => rfl
      | true =>
        rw [poll_response_flag hops hacc, Bool.true_and]
        exact hstay.resolve_left (by simp [hacc])
    rw [hhost, advance_poll hops, hfalse]; rfl
  · rw [hhost, advance_sendVar hops, hacc]; rfl
  · rw [hhost, advance_sendVar hops, hacc]; rfl
  · rw [hhost, advance_one_tick hops]

theorem instrWord_txSend (c : Byte) : instrWord (.txSend c) = 0x100#11 ||| c.setWidth 11 :=
  (instrWord_of_encode rfl).trans (commandWord_txSend c)

/-- Settles O53: each row of the table by the expansion's own case, with the words of the commands. -/
theorem pseudoStatementsExpand : Obligations.PseudoStatementsExpand := by
  intro m n v c cs
  refine ⟨rfl, rfl, rfl, rfl, ?_, ?_, ?_⟩
  · rw [expandStmt, instrWord_txSend]
  · simp only [expandStmt, instrWord_txSend]
  · simp only [expandStmt, instrWord_txSend]

/-! #### The stimulus (R105) -/

/-- The last statement of a stimulus drives the line where it covers the tick. -/
theorem stimulusLevel_append (bp t : Nat) (stimulus : List LineStmt) (st : LineStmt) :
    stimulusLevel bp (stimulus ++ [st]) t =
      (lineStmtLevel bp t st).getD (stimulusLevel bp stimulus t) := by
  simp [stimulusLevel]

/-- Inside slot `i` a frame drives the slot's bit. -/
theorem lineStmtLevel_frame_in_slot (bp : Nat) (b : Byte) (start : Nat) {p i j : Nat} (hi : i < 10)
    (hj : j < p) :
    lineStmtLevel bp (start + i * p + j) (.frame b start (some p)) =
      some ((frameWord b).getLsbD i) := by
  have hslot : (start + i * p + j - start) / p = i := by
    rw [Nat.add_assoc, Nat.add_sub_cancel_left, Nat.mul_comm, Nat.mul_add_div (by omega),
      Nat.div_eq_of_lt hj, Nat.add_zero]
  have hend : i * p + j < 10 * p := by
    have := Nat.mul_le_mul_right p (Nat.succ_le_of_lt hi)
    rw [Nat.succ_mul] at this
    omega
  simp only [lineStmtLevel, Option.getD_some, hslot]
  rw [if_pos (by omega)]

/-- Outside its ten slots a frame drives nothing. -/
theorem lineStmtLevel_frame_outside (bp : Nat) (b : Byte) {start p t : Nat}
    (ht : t < start ∨ start + 10 * p ≤ t) : lineStmtLevel bp t (.frame b start (some p)) = none := by
  simp only [lineStmtLevel, Option.getD_some]
  rw [if_neg (by omega)]

/-- Settles O54: what the last statement drives, and the line of the others where it drives nothing. -/
theorem stimulusDrivesTheLine : Obligations.StimulusDrivesTheLine := by
  intro bp t stimulus b start p t1 t2
  refine ⟨rfl, fun i j hi hj => ?_, fun ht => ?_, ?_, ?_⟩
  · rw [stimulusLevel_append, lineStmtLevel_frame_in_slot bp b start hi hj, Option.getD_some]
  · rw [stimulusLevel_append, lineStmtLevel_frame_outside bp b ht, Option.getD_none]
  · rw [stimulusLevel_append, stimulusLevel_append]; rfl
  · rw [stimulusLevel_append, lineStmtLevel]
    split <;> rfl

end Sys2Proof.Proofs

/-! ### The command port (40_host_port)

When a command is accepted, what it is answered, and what is left of it where the port is closed or it
asks for nothing. -/

namespace Sys2Proof.Proofs

open Sys2Proof.Machine

/-! #### Acceptance (R111) -/

/-- Whatever word is presented asks for something. -/
theorem requestNow_isSome (s : State) : s.requestNow.isSome = s.host.presents.isSome := by
  rw [State.requestNow]
  cases s.host.presents with
  | none => rfl
  | some w => exact requestOf_isSome s (decodeCommand_isCommand w)

/-- A step records the acceptance that the port shows, with reset or without. -/
theorem after_accepted_eq_acceptsNow (s : State) : s.after.accepted = s.acceptsNow := by
  cases hr : s.rstNow with
  | true => simp [State.after, State.acceptsNow, tick_reset hr, hr]
  | false =>
    rw [after_accepted hr, requestNow_isSome, Bool.and_comm, State.acceptsNow, hr, Bool.not_false,
      Bool.and_true]

theorem acceptsNow_iff (s : State) :
    s.acceptsNow = true ↔
      s.rstNow = false ∧ (∃ w, s.host.presents = some w) ∧ s.outputs.cmdReady = true := by
  rw [State.acceptsNow, Bool.and_eq_true, Bool.and_eq_true, Option.isSome_iff_exists,
    Bool.not_eq_true']
  exact and_comm

/-- Settles O14: the port is open where the transmitter is idle and the tick not stalled, and a step
records the acceptance of the port. -/
theorem commandIsAcceptedExactlyWhenPortIsOpen :
    Obligations.CommandIsAcceptedExactlyWhenPortIsOpen := by
  intro s
  have hopen : s.cmdReady = true ↔ s.tx.active = false ∧ ¬ s.Stalled := by
    rw [cmdReady_iff, ← stall_iff, Bool.not_eq_true]
  refine ⟨hopen, s.after, step_eq s, ?_⟩
  rw [after_accepted_eq_acceptsNow, acceptsNow_iff]

/-! #### The response (R113) -/

/-- A command asks for the response of its row of the table. -/
theorem requestOf_response (s : State) (i : Instr) :
    ((requestOf s i).getD quietRequest).response = responseTable s i := by
  cases i <;> rfl

theorem responseNow_of_accepted {s : State} {w : CmdWord} (hw : s.host.presents = some w)
    (h : s.acceptsNow = true) : s.responseNow = responseTable s (decodeCommand w) := by
  simp [State.responseNow, hw, h]

theorem responseNow_of_not_accepted {s : State} (h : s.acceptsNow = false) :
    s.responseNow = 0#9 := by
  rw [State.responseNow, h]
  cases s.host.presents <;> rfl

/-- A tick that accepts nothing answers 0, whatever keeps the command out. -/
theorem after_rsp_of_not_accepted {s : State} (h : s.after.accepted = false) :
    s.after.rsp = 0#9 := by
  cases hr : s.rstNow with
  | true => simp [State.after, tick_reset hr]
  | false =>
    rw [after_accepted hr] at h
    cases hc : s.cmdReady with
    | false => simp [State.after, tick_closed hr hc, quietRequest]
    | true =>
      have hnone : s.requestNow = none := by simpa [hc] using h
      simp [State.after, hnone, tick_none_record]

/-- A step records the response that the port shows. -/
theorem after_rsp_eq_responseNow (s : State) : s.after.rsp = s.responseNow := by
  have hrec := after_accepted_eq_acceptsNow s
  cases h : s.acceptsNow with
  | false => rw [after_rsp_of_not_accepted (hrec.trans h), responseNow_of_not_accepted h]
  | true =>
    obtain ⟨-, ⟨w, hw⟩, -⟩ := (acceptsNow_iff s).mp h
    rw [after_rsp_of_accepted (hrec.trans h), State.requestNow, hw, Option.bind_some,
      requestOf_response, responseNow_of_accepted hw h]

/-- Settles O15: the record is the port's response, and each opcode's row of the table in turn. -/
theorem responseFollowsTheTable : Obligations.ResponseFollowsTheTable := by
  refine fun s => ⟨s.after, step_eq s, after_rsp_eq_responseNow s, after_rsp_of_not_accepted,
    fun w hw hacc => ?_⟩
  have hrsp : s.after.rsp = responseTable s (decodeCommand w) :=
    (after_rsp_eq_responseNow s).trans
      (responseNow_of_accepted hw ((after_accepted_eq_acceptsNow s).symm.trans hacc))
  obtain ⟨nop, txSend, rxStatus, rxRead, rxClear, rxTake, rsv6, rsv7⟩ :=
    opcodeMapDecodesEveryWord w
  refine ⟨?_, fun h => ?_, fun h => ?_, fun h => ?_⟩
  · rintro (h | h | h | h | h)
    · rw [hrsp, nop h]; rfl
    · rw [hrsp, txSend h]; rfl
    · rw [hrsp, rxClear h]; rfl
    · rw [hrsp, rsv6 h]; rfl
    · rw [hrsp, rsv7 h]; rfl
  · rw [hrsp, rxStatus h]; exact rspWord_flag _
  · rw [hrsp, rxRead h]; exact rspWord_byte _
  · rw [hrsp, rxTake h]; exact rspWord_both _ _

/-! #### No effect (R112, R114) -/

/-- Settles O16: a closed port makes the tick the one that grants nothing. -/
theorem closedPortCommandHasNoEffect : Obligations.ClosedPortCommandHasNoEffect := by
  intro i s hi hr hclosed
  have hexec : exec i s = .next (s.runTick none) := by
    rw [exec_command hi, tick_closed hr hclosed]
  exact ⟨_, hexec, rfl, rfl, runTick_moves s none⟩

/-- On an open port a request that sends nothing leaves the transmitter, which is idle. -/
theorem runTick_tx_of_no_send {s : State} (h : s.PortOpen) {r : Request} (hr : r.send = none) :
    (s.runTick (some r)).tx = s.tx := by
  obtain ⟨-, hidle, hstall⟩ := h
  obtain ⟨-, -, hmoves⟩ := runTick_moves s (some r)
  exact hmoves.idle hstall hidle hr

/-- Settles O17: all three make the quiet request, which the open port grants. -/
theorem nopAndReservedWriteNothing : Obligations.NopAndReservedWriteNothing := by
  intro s d ho i hi
  have hexec : exec i s = .next (s.runTick (some quietRequest)) := by
    rcases hi with rfl | rfl | rfl <;> exact exec_open rfl ho
  obtain ⟨hframe, hbox, -⟩ := runTick_moves s (some quietRequest)
  exact ⟨_, hexec, rfl, rfl, hframe, hbox, runTick_tx_of_no_send ho rfl⟩

end Sys2Proof.Proofs

/-! ### The receiver (41_receiver)

The consumer's commands on an open port, the receiver's moves in a whole step, and the receptions that
begin with a frame, a glitch or a break. -/

namespace Sys2Proof.Proofs

open Sys2Proof.Machine

/-! #### The consumer's commands (R137 to R141) -/

/-- On an open port a command that sends nothing is answered, leaves the transmitter, and has its clear
reach the mailbox. -/
theorem exec_open_of_no_send {s : State} {i : Instr} {r : Request} (ho : s.PortOpen)
    (hi : i.isCommand = true) (hreq : requestOf s i = some r) (hsend : r.send = none) :
    ∃ t, exec i s = .next t ∧ t.accepted = true ∧ t.rsp = r.response ∧
      CommandFrame s t ∧ t.box = s.boxAfter r.clear ∧ t.tx = s.tx := by
  obtain ⟨hframe, hbox, -⟩ := runTick_moves s (some r)
  have hexec : exec i s = .next (s.runTick (some r)) := by rw [exec_open hi ho, hreq]
  exact ⟨_, hexec, rfl, rfl, hframe, hbox, runTick_tx_of_no_send ho hsend⟩

/-- Settles O19: the request of `RX_STATUS` neither sends nor clears. -/
theorem rxStatusAnswersTheFlag : Obligations.RxStatusAnswersTheFlag := by
  intro s d ho
  obtain ⟨t, hexec, hacc, hrsp, hrest⟩ := exec_open_of_no_send (i := .rxStatus d) ho rfl rfl rfl
  exact ⟨t, hexec, hacc, hrsp.trans (rspWord_flag _), hrest⟩

/-- Settles O20: the request of `RX_READ` neither sends nor clears, and does not read the flag. -/
theorem rxReadAnswersTheByte : Obligations.RxReadAnswersTheByte := by
  intro s d ho
  obtain ⟨t, hexec, hacc, hrsp, hrest⟩ := exec_open_of_no_send (i := .rxRead d) ho rfl rfl rfl
  exact ⟨t, hexec, hacc, hrsp.trans (rspWord_byte _), hrest⟩

/-- Settles O21: the clear reaches the mailbox, which `boxAfter_silent` gives where nothing is
published. -/
theorem rxClearClearsTheFlag : Obligations.RxClearClearsTheFlag := by
  intro s d ho
  obtain ⟨t, hexec, hacc, hrsp, hframe, hbox, htx⟩ :=
    exec_open_of_no_send (i := .rxClear d) ho rfl rfl rfl
  exact ⟨t, hexec, hacc, hrsp, fun hp => hbox.trans (boxAfter_silent hp true), hframe, hbox, htx⟩

/-- Settles O22: the response is of the pre-state, and the clear reaches the mailbox. -/
theorem rxTakeAnswersAndClears : Obligations.RxTakeAnswersAndClears := by
  intro s d ho
  obtain ⟨t, hexec, hacc, hrsp, hframe, hbox, htx⟩ :=
    exec_open_of_no_send (i := .rxTake d) ho rfl rfl rfl
  exact ⟨t, hexec, hacc, hrsp.trans (rspWord_both _ _),
    fun hp => hbox.trans (boxAfter_silent hp true), hframe, hbox, htx⟩

/-- Settles O24: a publishing receiver is busy, so only without preemption is the port open; and then
the mailbox is the publication's, whatever clears. -/
theorem publicationWinsOverAClear : Obligations.PublicationWinsOverAClear := by
  intro s d ho hp
  have hpreempts : s.cfg.rxPreempts = false := by
    obtain ⟨-, -, hstall⟩ := ho
    obtain ⟨hbusy, -⟩ := hp
    exact Bool.eq_false_of_not_eq_true fun h => hstall ⟨h, hbusy⟩
  refine ⟨hpreempts, ?_, ?_⟩
  · obtain ⟨t, hexec, -, hrsp, -, -, hbox, -⟩ := rxClearClearsTheFlag s d ho
    exact ⟨t, hexec, hbox.trans (boxAfter_publishing hp true), hrsp⟩
  · obtain ⟨t, hexec, -, hrsp, -, -, hbox, -⟩ := rxTakeAnswersAndClears s d ho
    exact ⟨t, hexec, hbox.trans (boxAfter_publishing hp true), hrsp⟩

/-! #### The moves in a whole step (R125 to R135) -/

theorem not_publishing_of_idle {s : State} (ha : s.rx.active = false) : ¬ s.Publishing :=
  fun ⟨hbusy, _⟩ => absurd (ha.symm.trans hbusy) (by decide)

theorem not_publishing_of_counting {s : State} (ht : 1 < s.rx.timer) : ¬ s.Publishing :=
  fun ⟨_, hdue, _⟩ => absurd hdue (Nat.not_le.mpr ht)

theorem not_publishing_of_more_samples {s : State} (hc : 1 < s.rx.cnt.toNat) : ¬ s.Publishing :=
  fun ⟨_, _, hlast⟩ => absurd hlast (Nat.not_le.mpr hc)

/-- A sample has the line at the top of the accumulator and the other bits one place down (R131). -/
theorem sampled_bits (s : State) :
    s.sampled.getLsbD 7 = s.lineNow ∧
      ∀ k : Nat, k < 7 → s.sampled.getLsbD k = s.rx.acc.getLsbD (k + 1) := by
  refine ⟨?_, fun k hk => ?_⟩
  · rw [sampled_getLsbD s 7 (by omega), if_pos rfl]
  · rw [sampled_getLsbD s k (by omega), if_neg (by omega)]

/-- Settles O26: the start move of the step, which publishes nothing. -/
theorem edgeStartsAReception : Obligations.EdgeStartsAReception := by
  intro s hr ha hp
  refine ⟨s.after, step_eq s, ?_⟩
  rw [(after_receiverMoves hr).start ha hp]
  exact ⟨rfl, rfl, rfl, rfl, rfl, rfl, rfl, after_byte_silent hr (not_publishing_of_idle ha)⟩

/-- Settles O27: the idle move of the step, which publishes nothing. -/
theorem idleReceiverOnlyRemembersTheLine : Obligations.IdleReceiverOnlyRemembersTheLine :=
  fun s hr ha hp => ⟨s.after, step_eq s, (after_receiverMoves hr).idle ha hp,
    after_byte_silent hr (not_publishing_of_idle ha)⟩

/-- Settles O28: the count move of the step, which publishes nothing. -/
theorem receiverCountsDown : Obligations.ReceiverCountsDown :=
  fun s hr ha ht => ⟨s.after, step_eq s, (after_receiverMoves hr).count ha ht,
    after_byte_silent hr (not_publishing_of_counting ht)⟩

/-- Settles O29: the sample move of the step, with the accumulator read bit by bit. -/
theorem sampleRotatesTheLineIn : Obligations.SampleRotatesTheLineIn := by
  intro s hr ha ht hc
  obtain ⟨htop, hdown⟩ := sampled_bits s
  refine ⟨s.after, step_eq s, ?_⟩
  rw [(after_receiverMoves hr).sample ha ht hc]
  exact ⟨rfl, count_sub_one_toNat (by omega), rfl, rfl, rfl, htop, hdown, rfl,
    after_byte_silent hr (not_publishing_of_more_samples hc)⟩

/-- Settles O30: the publishing move of the step, and the mailbox that gets the byte of its
accumulator. -/
theorem lastSamplePublishesAndRearms : Obligations.LastSamplePublishesAndRearms := by
  intro s hr ha ht hc
  have hp : s.Publishing := ⟨ha, ht, hc⟩
  obtain ⟨htop, hdown⟩ := sampled_bits s
  refine ⟨s.after, step_eq s, ?_⟩
  rw [after_box hr, boxAfter_publishing hp, (after_receiverMoves hr).publish hp]
  exact ⟨rfl, rfl, htop, hdown, rfl, rfl, rfl, rfl, rfl, rfl⟩

/-- Whatever move is due, a step without reset remembers the line (R125). -/
theorem after_prev {s : State} (hr : s.rstNow = false) : s.after.rx.prev = s.lineNow := by
  have hm := after_receiverMoves hr
  rcases receiver_move_due s with ⟨ha, hp⟩ | ⟨ha, hp⟩ | ⟨ha, ht⟩ | ⟨ha, ht, hc⟩ | hp
  · rw [hm.start ha hp]
  · rw [hm.idle ha hp]
  · rw [hm.count ha ht]
  · rw [hm.sample ha ht hc]
  · rw [hm.publish hp]

/-! #### The length of a reception (R143) -/

section
variable {s : State} (hwf : s.cfg.WF) (ha : s.rx.active = false) (hp : s.Pending)
  (hno : s.noResetFor (receptionTicks s.cfg + 1))
include hwf ha hp hno

/-- From the tick after detection to that of publication a reception stands between two of its sample
ticks: `k` samples are taken, and the next one is in `ticks` ticks, this one included. -/
theorem receiving_until_publication {j : Nat} (h1 : 1 ≤ j) (hj : j ≤ receptionTicks s.cfg) :
    ∃ k ticks, k < 8 ∧ 0 < ticks ∧ j + ticks = sampleTick s.cfg k + 1 ∧
      Receiving s k ticks (s.afterN j).rx := by
  have hperiod : 2 ≤ s.cfg.bitPeriod := hwf.2
  induction j, h1 using Nat.le_induction with
  | base =>
    have hdelay : 0 < startDelay s.cfg := by unfold startDelay; omega
    refine ⟨0, startDelay s.cfg, by omega, hdelay, by rw [sampleTick_zero, Nat.add_comm], ?_⟩
    exact receiving_start (afterN_rstNow (n := 0) hno (Nat.succ_pos _)) ha hp
  | succ j _ ih =>
    obtain ⟨k, ticks, hk, hpos, hsum, hrec⟩ := ih (by omega)
    rcases Nat.lt_or_ge 1 ticks with hcount | hdue
    · have hticks : ticks = ticks - 1 + 1 := by omega
      rw [hticks] at hrec
      exact ⟨k, ticks - 1, hk, by omega, by omega,
        receiving_count (fun i hi => hno i (by omega)) hrec (by omega)⟩
    · obtain rfl : ticks = 1 := by omega
      obtain rfl : j = sampleTick s.cfg k := by omega
      have hnot_last : k ≠ 7 := by
        rintro rfl
        rw [sampleTick_seven] at hj
        omega
      have hnext := sampleTick_succ s.cfg k
      exact ⟨k + 1, s.cfg.bitPeriod, by omega, by omega, by omega,
        receiving_sample (afterN_rstNow hno (by omega)) hrec (by omega)⟩

/-- A reception is busy for its whole length and publishes in its last tick only. -/
theorem busy_until_publication {j : Nat} (h1 : 1 ≤ j) (hj : j ≤ receptionTicks s.cfg) :
    (s.afterN j).rx.active = true ∧ ((s.afterN j).Publishing ↔ j = receptionTicks s.cfg) := by
  obtain ⟨k, ticks, hk, hpos, hsum, hrec⟩ := receiving_until_publication hwf ha hp hno h1 hj
  refine ⟨hrec.active, fun ⟨_, hdue, hlast⟩ => ?_, fun heq => ?_⟩
  · rw [hrec.timer] at hdue
    rw [hrec.cnt] at hlast
    obtain rfl : k = 7 := by omega
    rw [sampleTick_seven] at hsum
    omega
  · have hend := receiving_at_sampleTick hwf ha hp hno (k := 7) (by omega)
    rw [sampleTick_seven, ← heq] at hend
    exact ⟨hend.active, hend.timer.le, hend.cnt.le⟩

/-- Up to and including the tick of its publication a reception leaves the old byte. -/
theorem byte_until_publication {j : Nat} (hj : j ≤ receptionTicks s.cfg) :
    (s.afterN j).box.byte = s.box.byte := by
  induction j with
  | zero => rfl
  | succ j ih =>
    have hsilent : ¬ (s.afterN j).Publishing := by
      rcases Nat.eq_zero_or_pos j with rfl | h1
      · exact not_publishing_of_idle ha
      · obtain ⟨-, hpub⟩ := busy_until_publication hwf ha hp hno h1 (by omega)
        rw [hpub]
        omega
    rw [afterN_succ', after_byte_silent (afterN_rstNow hno (by omega)) hsilent, ih (by omega)]

end

/-- Settles O43: busy and silent up to the publication tick, and the publication in it. -/
theorem receptionIsBusyForItsFixedLength : Obligations.ReceptionIsBusyForItsFixedLength := by
  intro s hwf ha hp hno
  constructor
  · intro j h1 hj
    obtain ⟨hbusy, hpub⟩ := busy_until_publication hwf ha hp hno h1 hj
    exact ⟨s.afterN j, (reaches_iff _ _ _).mpr rfl, hbusy,
      byte_until_publication hwf ha hp hno hj, hpub⟩
  · obtain ⟨t, ht, hready, -, hidle, -⟩ := receptionPublishesTheEightSamples s hwf ha hp hno
    exact ⟨t, ht, hidle, hready⟩

/-! #### Frames, glitches and breaks (R144, R146) -/

/-- A reception whose line carries `b` at the sample ticks, least significant bit first, leaves `b` with
the flag set, and the receiver re-armed. -/
theorem reception_publishes_byte {s : State} {b : Byte} (hwf : s.cfg.WF) (ha : s.rx.active = false)
    (hp : s.Pending) (hno : s.noResetFor (receptionTicks s.cfg + 1))
    (hline : ∀ k : Nat, k < 8 → s.lineAt (sampleTick s.cfg k) = b.getLsbD k) :
    (s.afterN (receptionTicks s.cfg + 1)).box = { byte := b, ready := true } ∧
      (s.afterN (receptionTicks s.cfg + 1)).rx.active = false ∧
      (s.afterN (receptionTicks s.cfg + 1)).rx.edgePending = false := by
  obtain ⟨t, ht, hready, hbits, hidle, hlatch, -⟩ :=
    receptionPublishesTheEightSamples s hwf ha hp hno
  obtain rfl := (reaches_iff _ _ _).mp ht
  have hbyte : (s.afterN (receptionTicks s.cfg + 1)).box.byte = b :=
    BitVec.eq_of_getLsbD_eq fun k hk => (hbits k hk).trans (hline k hk)
  exact ⟨by rw [← hbyte, ← hready], hidle, hlatch⟩

/-- A frame driven on the line begins with its start bit. -/
theorem driveWord_frame_lineNow (s : State) (b : Byte) (hwf : s.cfg.WF) :
    (s.driveWord (frameWord b)).lineNow = false := by
  rw [State.lineNow, driveWord_rxIn, slotLevels_frame_eq_cons (Nat.lt_of_succ_lt hwf.2) b]
  rfl

/-- A frame driven on the line has bit `k` of its byte at sample tick `k`, half a slot into slot
`k + 1`. -/
theorem driveWord_lineAt_sampleTick (s : State) (b : Byte) (hwf : s.cfg.WF) {k : Nat} (hk : k < 8) :
    (s.driveWord (frameWord b)).lineAt (sampleTick s.cfg k) = b.getLsbD k := by
  have hmiddle : sampleTick s.cfg k = (k + 1) * s.cfg.bitPeriod + s.cfg.bitPeriod / 2 := by
    obtain ⟨heven, -⟩ := hwf
    rw [sampleTick, startDelay, Nat.add_one_mul k]
    omega
  have hhalf : s.cfg.bitPeriod / 2 < s.cfg.bitPeriod :=
    Nat.div_lt_self (Nat.lt_of_succ_lt hwf.2) Nat.one_lt_two
  have hslot := slotLevels_getElem? s.cfg.bitPeriod (k + 1) (s.cfg.bitPeriod / 2) (frameWord b)
    (by omega) hhalf
  obtain ⟨hlt, -⟩ := List.getElem?_eq_some_iff.mp hslot
  rw [State.lineAt, driveWord_rxIn, hmiddle, List.getD_append _ _ _ _ hlt,
    List.getD_eq_getElem?_getD, hslot, Option.getD_some, frameWord_getLsbD b (k + 1) (by omega),
    if_neg (by omega), if_neg (by omega), Nat.add_sub_cancel]

/-- The state in which the next step runs `FRAME b`: the frame on the line, the host quiet. -/
def fetchingFrame (s : State) (b : Byte) : State :=
  { s.driveWord (frameWord b) with host := { s.host with ops := .quiet :: s.host.ops } }

/-- The row's tick is that state's step, so a run that goes on from the row is a run from that state. -/
theorem exec_frame_eq_after (s : State) (b : Byte) :
    exec (.frame b) s = .next (fetchingFrame s b).after :=
  calc exec (.frame b) s
    _ = .next ((s.driveWord (frameWord b)).tick none) := exec_frame b s
    _ = step (fetchingFrame s b) := (step_quiet (s.driveWord (frameWord b))).symm
    _ = .next (fetchingFrame s b).after := step_eq _

/-- Settles O44: the start slot is the falling edge, and each sample falls in the middle of its slot. -/
theorem wellFormedFrameIsReceived : Obligations.WellFormedFrameIsReceived := by
  intro s b hwf ha hprev hno
  have hpend : (fetchingFrame s b).Pending := .inr ⟨hprev, driveWord_frame_lineNow s b hwf⟩
  have hr : (fetchingFrame s b).rstNow = false := afterN_rstNow (n := 0) hno (Nat.succ_pos _)
  obtain ⟨hbox, hidle, -⟩ := reception_publishes_byte (s := fetchingFrame s b) hwf ha hpend hno
    fun k hk => driveWord_lineAt_sampleTick s b hwf hk
  refine ⟨_, _, exec_frame_eq_after s b, ?_, (reaches_iff _ _ _).mpr rfl, hbox, hidle⟩
  rw [(after_receiverMoves hr).start ha hpend]

/-- The receiver is idle and re-armed, with `b` in the mailbox. -/
structure Resting (b : Byte) (s : State) : Prop where
  idle : s.rx.active = false
  latch : s.rx.edgePending = false
  byte : s.box.byte = b

/-- Without an edge the receiver rests on (R130). -/
theorem Resting.after {b : Byte} {s : State} (h : Resting b s) (hr : s.rstNow = false)
    (hedge : ¬ (s.rx.prev = true ∧ s.lineNow = false)) : Resting b s.after := by
  have hp : ¬ s.Pending := by
    rintro (hlatch | hfall)
    · exact absurd (h.latch.symm.trans hlatch) (by decide)
    · exact hedge hfall
  have hrx := (after_receiverMoves hr).idle h.idle hp
  exact ⟨by rw [hrx]; exact h.idle, by rw [hrx]; exact h.latch,
    (after_byte_silent hr (not_publishing_of_idle h.idle)).trans h.byte⟩

/-- A receiver that rests after tick `m` rests for as long as the line does not fall. -/
theorem resting_until_fall {b : Byte} {s : State} {m n : Nat} (hmn : m + 1 ≤ n)
    (h : Resting b (s.afterN (m + 1))) (hno : s.noResetFor n)
    (hfall : ∀ j : Nat, m < j → j < n → ¬ (s.lineAt (j - 1) = true ∧ s.lineAt j = false)) :
    Resting b (s.afterN n) := by
  induction n, hmn using Nat.le_induction with
  | base => exact h
  | succ n hmn ih =>
    have hrest := ih (fun j hj => hno j (by omega)) fun j hmj hjn => hfall j hmj (by omega)
    obtain ⟨i, rfl⟩ : ∃ i, n = i + 1 := ⟨n - 1, by omega⟩
    have hprev : (s.afterN (i + 1)).rx.prev = s.lineAt i := by
      rw [afterN_succ', after_prev (afterN_rstNow hno (by omega)), afterN_lineNow]
    rw [afterN_succ']
    refine hrest.after (afterN_rstNow hno (by omega)) ?_
    rw [hprev, afterN_lineNow]
    exact hfall (i + 1) (by omega) (by omega)

/-- Settles O46: the eight samples of a glitch are ones and those of a break zeros; after the break the
receiver rests until the line falls. -/
theorem glitchAndBreakAreReceivedAsBytes : Obligations.GlitchAndBreakAreReceivedAsBytes := by
  intro s hwf ha hprev hlow hno
  have hp : s.Pending := .inr ⟨hprev, (afterN_lineNow 0 s).trans hlow⟩
  constructor
  · intro hhigh
    have hones (k : Nat) (hk : k < 8) : s.lineAt (sampleTick s.cfg k) = (0xFF#8).getLsbD k := by
      rw [sampleTick, hhigh k hk, show 0xFF#8 = BitVec.allOnes 8 from rfl, BitVec.getLsbD_allOnes,
        decide_eq_true hk]
    obtain ⟨hbox, -⟩ := reception_publishes_byte hwf ha hp hno hones
    exact ⟨_, (reaches_iff _ _ _).mpr rfl, hbox⟩
  · intro hbreak
    have hzeros (k : Nat) (hk : k < 8) : s.lineAt (sampleTick s.cfg k) = (0x00#8).getLsbD k := by
      rw [hbreak _ (sampleTick_le s.cfg hk), BitVec.getLsbD_zero]
    obtain ⟨hbox, hidle, hlatch⟩ := reception_publishes_byte hwf ha hp hno hzeros
    refine ⟨⟨_, (reaches_iff _ _ _).mpr rfl, hbox⟩, fun n hn hno' hfall => ?_⟩
    have hrest := resting_until_fall hn ⟨hidle, hlatch, by rw [hbox]⟩ hno' hfall
    exact ⟨_, (reaches_iff _ _ _).mpr rfl, hrest.idle, hrest.byte⟩

end Sys2Proof.Proofs

/-! ### The transmitter (42_transmitter)

The moves of a busy and of an idle transmitter, the wave of a whole transmission slot by slot, and the
round trip over a wire. A wired block's run is told as the plain run of a state whose schedule holds the
levels of the wire, so that the rule of a reception applies to it. -/

namespace Sys2Proof.Proofs

open Sys2Proof.Machine

/-! #### The moves in a whole step (R151 to R155, R160) -/

/-- Settles O18: the open port grants the request of `TX_SEND`, and the idle transmitter starts. -/
theorem txSendLoadsTheTransmitter : Obligations.TxSendLoadsTheTransmitter := by
  intro s d ho
  have ⟨_, hidle, hstall⟩ := ho
  obtain ⟨hframe, hbox, hmoves⟩ :=
    runTick_moves s (some { response := 0#9, send := some d, clear := false })
  exact ⟨_, exec_open rfl ho, rfl, rfl, hmoves.start hstall hidle d rfl, hframe, hbox⟩

/-- Settles O31: the count move of the step. -/
theorem transmitterCountsDown : Obligations.TransmitterCountsDown :=
  fun s hr hs ha ht => ⟨s.after, step_eq s, (after_transmitterMoves hr).count hs ha ht⟩

/-- The primed shift register: a 1 at the top, and the other bits one place down (R153). -/
theorem primed_getLsbD (sr : Byte) {k : Nat} (hk : k < 8) :
    (0x80#8 ||| (sr >>> 1)).getLsbD k = if k = 7 then true else sr.getLsbD (k + 1) := by
  have hrot : (0x80#8 ||| (sr >>> 1)) = (rrc true sr).2 := (rrc_value true sr).symm
  rw [hrot, rrc_getLsbD true sr k hk]

/-- Settles O32: the step move, with the shift register read bit by bit. -/
theorem transmitStepPrimesAndRotates : Obligations.TransmitStepPrimesAndRotates := by
  intro s hr hs ha ht hc
  refine ⟨s.after, step_eq s, ?_⟩
  rw [(after_transmitterMoves hr).step hs ha ht hc]
  refine ⟨?_, fun k hk => ?_, rfl, rfl, count_sub_one_toNat hc, rfl, rfl⟩
  · rw [primed_getLsbD s.tx.sr (by omega), if_pos rfl]
  · rw [primed_getLsbD s.tx.sr (by omega), if_neg (by omega)]

/-- A busy transmitter holds the port closed (10_state R52). -/
theorem cmdReady_of_busy {s : State} (ha : s.tx.active = true) : s.cmdReady = false := by
  rw [State.cmdReady, ha, Bool.not_true, Bool.false_and]

/-- Settles O33: the end move of the step, in which the busy transmitter still holds the port closed. -/
theorem frameEndFreesTheTransmitter : Obligations.FrameEndFreesTheTransmitter := by
  intro s hr hs ha ht hc
  refine ⟨s.after, step_eq s, (after_transmitterMoves hr).stop hs ha ht hc, ?_⟩
  rw [after_accepted hr, cmdReady_of_busy ha, Bool.false_and]

/-- Opcode 1 is the one that asks to send, and what it sends is its operand (30_encoding R94). -/
theorem requestOf_send (s : State) (w : CmdWord) :
    ((requestOf s (decodeCommand w)).getD quietRequest).send =
      if opBits w = 0x100#11 then some (w.setWidth 8) else none := by
  obtain ⟨nop, txSend, rxStatus, rxRead, rxClear, rxTake, rsv6, rsv7⟩ :=
    opcodeMapDecodesEveryWord w
  rcases opBits_cases w with h | h | h | h | h | h | h | h
  · rw [nop h, h]; rfl
  · rw [txSend h, h]; rfl
  · rw [rxStatus h, h]; rfl
  · rw [rxRead h, h]; rfl
  · rw [rxClear h, h]; rfl
  · rw [rxTake h, h]; rfl
  · rw [rsv6 h, h]; rfl
  · rw [rsv7 h, h]; rfl

theorem requestNow_send (s : State) :
    (s.requestNow.getD quietRequest).send = s.sendPresented := by
  rw [State.requestNow, State.sendPresented]
  cases s.host.presents with
  | none => rfl
  | some w => exact requestOf_send s w

/-- A step hands the transmitter the byte of the `TX_SEND` on the port. -/
theorem after_moves_of_sendPresented {s : State} (hr : s.rstNow = false) :
    TransmitterMoves s.sendPresented s s.after := by
  rw [← requestNow_send]
  exact after_transmitterMoves hr

/-- Settles O34: the idle move, the stalled one or the start, by what the host presents. -/
theorem idleTransmitterWaitsForTxSend : Obligations.IdleTransmitterWaitsForTxSend := by
  intro s hr ha
  have hm := after_moves_of_sendPresented hr
  refine ⟨s.after, step_eq s, fun hstands => ?_, fun hs d hd => ?_⟩
  · by_cases hs : s.Stalled
    · exact hm.stalled hs
    · exact hm.idle hs ha (hstands.resolve_left hs)
  · rw [hm.start hs ha d hd]
    exact ⟨rfl, rfl, rfl⟩

/-! #### A whole transmission (R154, R156) -/

/-- The transmitter in slot `i` of the frame of `b`, which lasts `ticks` ticks more, this one included:
`9 - i` steps are due, the bits of `b` not yet sent are at the bottom of the shift register under the
primed ones, and the line carries the slot's level (R154). -/
structure Sending (b : Byte) (i ticks : Nat) (tx : Transmitter) : Prop where
  active : tx.active = true
  timer : tx.timer = ticks
  cnt : tx.cnt.toNat = 9 - i
  sr : ∀ k : Nat, k < 8 → tx.sr.getLsbD k = if k + i < 8 then b.getLsbD (k + i) else true
  carry : tx.c = tx.line
  line : tx.line = (frameWord b).getLsbD i

section
variable {b : Byte} {i : Nat} {send : Option Byte} {s t : State}

/-- What `TX_SEND` loads is the first tick of the start slot (R151). -/
theorem sending_loaded (b : Byte) (period : Nat) :
    Sending b 0 period
      { active := true, timer := period, cnt := 9#4, sr := b, c := false, line := false } := by
  refine ⟨rfl, rfl, rfl, fun k hk => ?_, rfl, (frameWord_getLsbD b 0 (by omega)).symm⟩
  rw [if_pos (by omega), Nat.add_zero]

/-- Within a slot the timer counts down, and the slot stands (R152). -/
theorem Sending.count {ticks : Nat} (h : Sending b i ticks s.tx) (hm : TransmitterMoves send s t)
    (hs : ¬ s.Stalled) (ht : 1 < ticks) : Sending b i (ticks - 1) t.tx := by
  rw [hm.count hs h.active (by rwa [h.timer])]
  exact ⟨h.active, congrArg (· - 1) h.timer, h.cnt, h.sr, h.carry, h.line⟩

/-- After its last tick a slot makes way for the next one (R153). -/
theorem Sending.step (h : Sending b i 1 s.tx) (hm : TransmitterMoves send s t)
    (hs : ¬ s.Stalled) (hi : i < 9) : Sending b (i + 1) s.cfg.bitPeriod t.tx := by
  have hcnt := h.cnt
  rw [hm.step hs h.active h.timer.le (by omega)]
  refine ⟨rfl, rfl, ?_, fun k hk => ?_, rfl, ?_⟩
  · rw [count_sub_one_toNat (by omega)]
    omega
  · rw [primed_getLsbD s.tx.sr hk]
    by_cases h7 : k = 7
    · rw [if_pos h7, if_neg (by omega)]
    · rw [if_neg h7, h.sr (k + 1) (by omega), show k + 1 + i = k + (i + 1) by omega]
  · rw [h.sr 0 (by omega), frameWord_getLsbD b (i + 1) (by omega), Nat.zero_add, Nat.add_sub_cancel]
    by_cases h8 : i = 8
    · rw [if_neg (by omega), if_neg (by omega), if_pos (by omega)]
    · rw [if_pos (by omega), if_neg (by omega), if_neg (by omega)]

/-- The stop slot has no step after it: the transmitter goes idle, with only primed ones left (R154,
R155). -/
theorem Sending.stop (h : Sending b 9 1 s.tx) (hm : TransmitterMoves send s t) (hs : ¬ s.Stalled) :
    t.tx = { active := false, timer := 0, cnt := 0#4, sr := 0xFF#8, c := true, line := true } := by
  have hcnt : s.tx.cnt = 0#4 := BitVec.eq_of_toNat_eq h.cnt
  have hsr : s.tx.sr = 0xFF#8 := by
    refine BitVec.eq_of_getLsbD_eq fun k hk => ?_
    rw [h.sr k hk, if_neg (by omega), show 0xFF#8 = BitVec.allOnes 8 from rfl,
      BitVec.getLsbD_allOnes, decide_eq_true hk]
  have hline : s.tx.line = true := h.line.trans (frameWord_getLsbD b 9 (by omega))
  have hcarry : s.tx.c = true := h.carry.trans hline
  rw [hm.stop hs h.active h.timer.le hcnt, ← hcnt, ← hsr]
  simp only [hcarry, hline]

end

section
variable {s : State} {b : Byte} {n : Nat} (hno : s.noResetFor n)
  (hstall : ∀ m < n, ¬ (s.afterN m).Stalled)
include hno hstall

/-- A slot that begins in tick `m` of a run without stall lasts a bit period. -/
theorem sending_within_slot {i m j : Nat} (hj : j < s.cfg.bitPeriod) (hmj : m + j ≤ n)
    (h : Sending b i s.cfg.bitPeriod (s.afterN m).tx) :
    Sending b i (s.cfg.bitPeriod - j) (s.afterN (m + j)).tx := by
  induction j with
  | zero => exact h
  | succ j ih =>
    have hprev := ih (by omega) (by omega)
    have hmove := after_transmitterMoves (afterN_rstNow hno (show m + j < n by omega))
    have hnext := hprev.count hmove (hstall (m + j) (by omega)) (by omega)
    rwa [← afterN_succ', Nat.sub_sub] at hnext

/-- The ten slots of a frame follow each other, a bit period each (R156). -/
theorem sending_in_slot (hstart : Sending b 0 s.cfg.bitPeriod s.tx) {i j : Nat} (hi : i < 10)
    (hj : j < s.cfg.bitPeriod) (hn : i * s.cfg.bitPeriod + j ≤ n) :
    Sending b i (s.cfg.bitPeriod - j) (s.afterN (i * s.cfg.bitPeriod + j)).tx := by
  induction i generalizing j with
  | zero =>
    rw [Nat.zero_mul] at hn ⊢
    exact sending_within_slot hno hstall hj hn hstart
  | succ i ih =>
    have hlast : i * s.cfg.bitPeriod + (s.cfg.bitPeriod - 1) + 1 = (i + 1) * s.cfg.bitPeriod := by
      rw [Nat.succ_mul]
      omega
    have hprev := ih (j := s.cfg.bitPeriod - 1) (by omega) (by omega) (by omega)
    rw [Nat.sub_sub_self (by omega)] at hprev
    have hmove := after_transmitterMoves
      (afterN_rstNow hno (show i * s.cfg.bitPeriod + (s.cfg.bitPeriod - 1) < n by omega))
    have hnext := hprev.step hmove (hstall _ (by omega)) (by omega)
    rw [← afterN_succ', hlast, afterN_cfg] at hnext
    exact sending_within_slot hno hstall hj hn hnext

/-- Ten bit periods after its start slot began the transmitter is idle, with the line at 1 (R155). -/
theorem idle_after_frame (hstart : Sending b 0 s.cfg.bitPeriod s.tx) (hpos : 0 < s.cfg.bitPeriod)
    (hn : 10 * s.cfg.bitPeriod ≤ n) :
    (s.afterN (10 * s.cfg.bitPeriod)).tx =
      { active := false, timer := 0, cnt := 0#4, sr := 0xFF#8, c := true, line := true } := by
  have hlast : 10 * s.cfg.bitPeriod = 9 * s.cfg.bitPeriod + (s.cfg.bitPeriod - 1) + 1 := by omega
  have hstop := sending_in_slot hno hstall hstart (i := 9) (j := s.cfg.bitPeriod - 1) (by omega)
    (by omega) (by omega)
  rw [Nat.sub_sub_self hpos] at hstop
  rw [hlast, afterN_succ']
  exact hstop.stop (after_transmitterMoves (afterN_rstNow hno (by omega))) (hstall _ (by omega))

end

/-- Settles O48: from what `TX_SEND` loads, each tick of the wave is one of a slot, and the frame's end
leaves the transmitter idle. -/
theorem transmissionIsTheFrameWave : Obligations.TransmissionIsTheFrameWave := by
  intro s b hwf ho
  obtain ⟨t, hexec, -, -, htx, hframe, -⟩ := txSendLoadsTheTransmitter s b ho
  rw [← hframe.inputs.cfg] at hwf htx ⊢
  refine ⟨t, hexec, fun hno hunstalled => ?_⟩
  have hstart : Sending b 0 t.cfg.bitPeriod t.tx := htx ▸ sending_loaded b t.cfg.bitPeriod
  have hstall : ∀ m < 10 * t.cfg.bitPeriod, ¬ (t.afterN m).Stalled :=
    fun m hm => hunstalled m _ hm ((reaches_iff _ _ _).mpr rfl)
  refine ⟨fun i j hi hj => ⟨_, (reaches_iff _ _ _).mpr rfl, ?_⟩, _, (reaches_iff _ _ _).mpr rfl, ?_⟩
  · have hslot : (i + 1) * t.cfg.bitPeriod ≤ 10 * t.cfg.bitPeriod := Nat.mul_le_mul_right _ hi
    rw [Nat.succ_mul] at hslot
    have hsend := sending_in_slot hno hstall hstart hi hj (by omega)
    exact ⟨hsend.line.trans (frameWord_getLsbD b i hi), hsend.active, cmdReady_of_busy hsend.active⟩
  · have hidle := idle_after_frame hno hstall hstart (Nat.lt_of_succ_lt hwf.2) le_rfl
    exact ⟨hidle, fun hs => (cmdReady_iff _).mpr ⟨by rw [hidle], not_stalled hs⟩⟩

/-! #### A wire (10_state R53)

A wired block's run is the plain run of the block with the levels of the wire in its schedule. -/

/-- The state with another schedule on its receive line. -/
def withLine (line : List Level) (s : State) : State := { s with rxIn := line }

/-- A tick reads the first level of the schedule only. -/
theorem tick_withLine (s : State) (l : Level) (rest : List Level) (r : Option Request) :
    (withLine (l :: rest) s).tick r = withLine rest ((s.driveLevel l).tick r) := by
  have hr : (withLine (l :: rest) s).rstNow = (s.driveLevel l).rstNow := rfl
  simp only [State.tick, hr]
  split <;> rfl

theorem requestOf_withLine (line : List Level) (s : State) (i : Instr) :
    requestOf (withLine line s) i = requestOf s i := by
  cases i <;> rfl

/-- What the host asks for does not depend on the schedule. -/
theorem requestNow_withLine (line : List Level) (s : State) :
    (withLine line s).requestNow = s.requestNow :=
  congrArg s.host.presents.bind (funext fun w => requestOf_withLine line s (decodeCommand w))

/-- A step reads the first level of the schedule only, and leaves the rest. -/
theorem after_withLine (s : State) (l : Level) (rest : List Level) :
    (withLine (l :: rest) s).after = withLine rest (s.driveLevel l).after := by
  have hreq : (withLine (l :: rest) s).requestNow = (s.driveLevel l).requestNow :=
    (requestNow_withLine _ s).trans (requestNow_withLine _ s).symm
  rw [State.after, State.after, tick_withLine, hreq]
  rfl

/-- The levels a block drives in its next `n` ticks, where `next` is what a tick makes of it. -/
def levelsDriven (next : State → State) : Nat → State → List Level
  | 0, _ => []
  | n + 1, s => s.tx.line :: levelsDriven next n (next s)

/-- The next state of a block wired to itself. -/
def loopAfter (s : State) : State := (s.driveLevel s.tx.line).after

/-- The block with its own levels of `n` ticks in the schedule. -/
def selfFed (n : Nat) (s : State) : State := withLine (levelsDriven loopAfter n s) s

/-- The block `c` with the levels of `n` ticks of `a` in the schedule. -/
def fedBy (n : Nat) (a c : State) : State := withLine (levelsDriven State.after n a) c

theorem selfFed_after (n : Nat) (s : State) :
    (selfFed (n + 1) s).after = selfFed n (loopAfter s) := after_withLine s _ _

theorem fedBy_after (n : Nat) (a c : State) :
    (fedBy (n + 1) a c).after = fedBy n a.after (c.driveLevel a.tx.line).after :=
  after_withLine c _ _

/-- A run of a block wired to itself, but for the schedule that the wire overrides. -/
theorem loopRun_eq (n : Nat) (s : State) :
    loopRun n s = .next (withLine (s.rxIn.drop n) ((selfFed n s).afterN n)) := by
  induction n generalizing s with
  | zero => rfl
  | succ n ih =>
    have hstep : loopStep s = .next (loopAfter s) := step_eq _
    have hdrop : (loopAfter s).rxIn.drop n = s.rxIn.drop (n + 1) := by simp [loopAfter]
    simp only [loopRun, hstep]
    rw [ih, hdrop, State.afterN, selfFed_after]

/-- A run of two wired blocks: the first one's own, and the second one's, but for the schedule that the
wire overrides. -/
theorem linkRun_eq (n : Nat) (a c : State) :
    linkRun n a c =
      some (a.afterN n, withLine (c.rxIn.drop n) ((fedBy n a c).afterN n)) := by
  induction n generalizing a c with
  | zero => rfl
  | succ n ih =>
    have hstep : linkStep a c = some (a.after, (c.driveLevel a.tx.line).after) := by
      rw [linkStep, step_eq, step_eq]
      rfl
    have hdrop : ((c.driveLevel a.tx.line).after).rxIn.drop n = c.rxIn.drop (n + 1) := by simp
    rw [linkRun, hstep, Option.bind_some, ih, hdrop, State.afterN, State.afterN, fedBy_after]

/-- A block fed by itself sees in each tick the level it drives. -/
theorem selfFed_lineAt {n j : Nat} (hj : j < n) (s : State) :
    (selfFed n s).lineAt j = ((selfFed n s).afterN j).tx.line := by
  induction n generalizing j s with
  | zero => omega
  | succ n ih =>
    cases j with
    | zero => rfl
    | succ j =>
      rw [State.afterN, selfFed_after, ← ih (by omega)]
      rfl

/-- A block fed by another sees in each tick the level the other drives. -/
theorem fedBy_lineAt {n j : Nat} (hj : j < n) (a c : State) :
    (fedBy n a c).lineAt j = (a.afterN j).tx.line := by
  induction n generalizing j a c with
  | zero => omega
  | succ n ih =>
    cases j with
    | zero => rfl
    | succ j =>
      rw [State.afterN, ← ih (by omega) a.after (c.driveLevel a.tx.line).after]
      rfl

/-! #### The round trip (R162) -/

theorem after_lineAt (s : State) (j : Nat) : s.after.lineAt j = s.lineAt (j + 1) :=
  (afterN_lineNow j s.after).symm.trans (afterN_lineNow (j + 1) s)

theorem after_noResetFor {s : State} {n : Nat} (h : s.noResetFor (n + 1)) :
    s.after.noResetFor n := by
  intro j hj
  have hnext := h (j + 1) (by omega)
  rwa [after_rstIn, List.getD_eq_getElem?_getD, List.getElem?_tail, ← List.getD_eq_getElem?_getD]

/-- Sample `k` falls in the middle of slot `k + 1`. -/
theorem sampleTick_eq_middle {c : Config} (hwf : c.WF) (k : Nat) :
    sampleTick c k = (k + 1) * c.bitPeriod + c.bitPeriod / 2 := by
  obtain ⟨heven, -⟩ := hwf
  rw [sampleTick, startDelay, Nat.add_one_mul k]
  omega

/-- The ticks of a reception depend on the bit period only. -/
theorem sampleTick_congr {c d : Config} (h : c.bitPeriod = d.bitPeriod) (k : Nat) :
    sampleTick c k = sampleTick d k := by
  rw [sampleTick, startDelay, h]
  rfl

/-- A line at 1 is no fall (R125). -/
theorem no_fall_of_high {s : State} (h : s.lineNow = true) :
    ¬ (s.rx.prev = true ∧ s.lineNow = false) :=
  fun ⟨_, hlow⟩ => absurd (h.symm.trans hlow) (by decide)

/-- A receiver at rest sees the fall of its second tick. -/
theorem fall_after_high {s : State} (hr : s.rstNow = false) (ha : s.rx.active = false)
    (hlatch : s.rx.edgePending = false) (hhigh : s.lineAt 0 = true) (hlow : s.lineAt 1 = false) :
    s.after.rx.active = false ∧ s.after.Pending := by
  have hnow : s.lineNow = true := (afterN_lineNow 0 s).trans hhigh
  have hrest : Resting s.box.byte s.after :=
    Resting.after ⟨ha, hlatch, rfl⟩ hr (no_fall_of_high hnow)
  exact ⟨hrest.idle, .inr ⟨(after_prev hr).trans hnow, (afterN_lineNow 1 s).trans hlow⟩⟩

section
variable {a : State} {b : Byte} (hwf : a.cfg.WF) (ho : a.PortOpen)
  (hsend : a.sendPresented = some b) (hno : a.noResetFor (receptionTicks a.cfg + 2))
  (hstall : ∀ m < receptionTicks a.cfg + 2, ¬ (a.afterN m).Stalled)
include hwf ho hsend hno hstall

/-- A sender that is never stalled has the start slot on the line in the tick after the acceptance, and
bit `k` in the middle of its slot. -/
theorem sender_levels :
    (a.afterN 1).tx.line = false ∧
      ∀ k < 8, (a.afterN (sampleTick a.cfg k + 1)).tx.line = b.getLsbD k := by
  have ⟨hr, hidle, hopen⟩ := ho
  have hload : a.after.tx = _ := (after_moves_of_sendPresented hr).start hopen hidle b hsend
  have hstart : Sending b 0 a.after.cfg.bitPeriod a.after.tx := by
    rw [hload, after_cfg]
    exact sending_loaded b a.cfg.bitPeriod
  have hstall' : ∀ m < receptionTicks a.cfg + 1, ¬ (a.after.afterN m).Stalled :=
    fun m hm => hstall (m + 1) (by omega)
  refine ⟨congrArg Transmitter.line hload, fun k hk => ?_⟩
  have hmiddle := sampleTick_eq_middle hwf k
  have hle := sampleTick_le a.cfg hk
  have hhalf : a.cfg.bitPeriod / 2 < a.cfg.bitPeriod :=
    Nat.div_lt_self (Nat.lt_of_succ_lt hwf.2) Nat.one_lt_two
  have hslot := sending_in_slot (after_noResetFor hno) hstall' hstart (i := k + 1)
    (j := a.cfg.bitPeriod / 2) (by omega) (by rwa [after_cfg]) (by rw [after_cfg]; omega)
  rw [after_cfg, ← hmiddle] at hslot
  rw [State.afterN, hslot.line, frameWord_getLsbD b (k + 1) (by omega), if_neg (by omega),
    if_neg (by omega), Nat.add_sub_cancel]

/-- A receiver at rest, on whose line stand the levels of a sender that is never stalled, publishes the
byte sent. -/
theorem receives_sent_byte {c : State} (hperiod : c.cfg.bitPeriod = a.cfg.bitPeriod)
    (hhigh : a.tx.line = true) (ha : c.rx.active = false) (hlatch : c.rx.edgePending = false)
    (hno' : c.noResetFor (receptionTicks a.cfg + 2))
    (hline : ∀ j < receptionTicks a.cfg + 2, c.lineAt j = (a.afterN j).tx.line) :
    (c.afterN (receptionTicks a.cfg + 2)).box = { byte := b, ready := true } := by
  obtain ⟨hlow, hbits⟩ := sender_levels hwf ho hsend hno hstall
  obtain ⟨hidle, hpend⟩ := fall_after_high (afterN_rstNow (n := 0) hno' (by omega)) ha hlatch
    ((hline 0 (by omega)).trans hhigh) ((hline 1 (by omega)).trans hlow)
  have hperiod' : c.after.cfg.bitPeriod = a.cfg.bitPeriod := by rw [after_cfg, hperiod]
  have hticks : receptionTicks c.after.cfg = receptionTicks a.cfg := sampleTick_congr hperiod' 7
  have hwf' : c.after.cfg.WF := by rwa [Config.WF, hperiod']
  have hwave (k : Nat) (hk : k < 8) : c.after.lineAt (sampleTick c.after.cfg k) = b.getLsbD k := by
    have hle := sampleTick_le a.cfg hk
    rw [after_lineAt, sampleTick_congr hperiod', hline _ (by omega), hbits k hk]
  obtain ⟨hbox, -⟩ := reception_publishes_byte hwf' hidle hpend
    (by rw [hticks]; exact after_noResetFor hno') hwave
  rwa [hticks] at hbox

end

/-- Without `RX_PREEMPTS` no tick is stalled (60_exceptions R207). -/
theorem unstalled_of_not_preempting {s : State} (h : s.cfg.rxPreempts = false) (m : Nat) :
    ¬ (s.afterN m).Stalled := by
  rintro ⟨hpreempts, -⟩
  rw [afterN_cfg, h] at hpreempts
  exact absurd hpreempts (by decide)

/-- A receiver at rest whose line stays at 1 stalls nothing. -/
theorem unstalled_of_quiet_line {s : State} {n : Nat} (ha : s.rx.active = false)
    (hlatch : s.rx.edgePending = false) (hno : s.noResetFor n)
    (hline : ∀ j < n, s.lineAt j = true) {m : Nat} (hm : m < n) : ¬ (s.afterN m).Stalled := by
  have hrest : Resting s.box.byte (s.afterN m) := by
    induction m with
    | zero => exact ⟨ha, hlatch, rfl⟩
    | succ m ih =>
      have hnow := (afterN_lineNow m s).trans (hline m (by omega))
      rw [afterN_succ']
      exact (ih (by omega)).after (afterN_rstNow hno (by omega)) (no_fall_of_high hnow)
  exact fun ⟨_, hbusy⟩ => absurd (hrest.idle.symm.trans hbusy) (by decide)

/-- Settles O49: fed by itself the block is sender and receiver in one plain run. -/
theorem selfWiredBlockReceivesWhatItSends : Obligations.SelfWiredBlockReceivesWhatItSends := by
  intro s b hwf hpreempts ho ha hlatch hhigh hsend hno
  have hstall := unstalled_of_not_preempting (s := selfFed (receptionTicks s.cfg + 2) s) hpreempts
  exact ⟨_, loopRun_eq _ s, receives_sent_byte (a := selfFed _ s) hwf ho hsend hno
    (fun m _ => hstall m) rfl hhigh ha hlatch hno fun j hj => selfFed_lineAt hj s⟩

/-- Settles O51: the sender's run is its own, unstalled on either ground, and the receiver is fed by
it. -/
theorem twoBlocksRoundTripEveryByte : Obligations.TwoBlocksRoundTripEveryByte := by
  intro a c b hwf hperiod ho hsend hhigh hground ha hlatch hno hno'
  have hstall : ∀ m < receptionTicks a.cfg + 2, ¬ (a.afterN m).Stalled := by
    intro m hm
    rcases hground with hpreempts | ⟨ha', hlatch', hquiet⟩
    · exact unstalled_of_not_preempting hpreempts m
    · exact unstalled_of_quiet_line ha' hlatch' hno hquiet hm
  exact ⟨_, _, linkRun_eq _ a c, receives_sent_byte (c := fedBy _ a c) hwf ho hsend hno hstall
    hperiod hhigh ha hlatch hno' fun j hj => fedBy_lineAt hj a c⟩

end Sys2Proof.Proofs

/-! ### The Formatter (43_formatter_collaborators)

Outside the hardware (log entry 13): how a byte is rendered, and what each step of the scan of a
template sends. -/

namespace Sys2Proof.Proofs

open Sys2Proof.Machine

/-! #### Numbers (R167, R168, R169) -/

/-- The top bit of a byte is its sign: it is clear below 128. -/
theorem topBit_clear_iff (v : Byte) : v.getLsbD 7 = false ↔ v.toNat < 128 := by
  have hmsb : v.getLsbD 7 = v.msb := (BitVec.msb_eq_getLsbD_last v).symm
  rw [hmsb, BitVec.msb_eq_decide]
  simp

theorem topBit_set {v : Byte} (h : 128 ≤ v.toNat) : v.getLsbD 7 = true :=
  eq_true_of_ne_false fun hclear => absurd ((topBit_clear_iff v).mp hclear) (by omega)

theorem magnitude_nonneg (m : FmtNeg128) {v : Byte} (h : v.toNat < 128) :
    magnitude m v = v.toNat :=
  if_pos ((topBit_clear_iff v).mpr h)

/-- Above 128 the magnitude is the two's complement; 128 itself is the open case (R167). -/
theorem magnitude_neg (m : FmtNeg128) {v : Byte} (h : 128 < v.toNat) :
    magnitude m v = 256 - v.toNat := by
  have hset : ¬ v.getLsbD 7 = false := by simp [topBit_set h.le]
  have hopen : v ≠ 0x80#8 := by
    rintro rfl
    exact absurd h (by decide)
  exact (if_neg hset).trans (if_neg hopen)

theorem formatSigned_nonneg (m : FmtNeg128) {v : Byte} (h : v.toNat < 128) :
    formatSigned m v = 0x20#8 :: formatUnsigned v.toNat := by
  rw [formatSigned, magnitude_nonneg m h, (topBit_clear_iff v).mpr h, if_neg Bool.false_ne_true]

theorem formatSigned_neg (m : FmtNeg128) {v : Byte} (h : 128 < v.toNat) :
    formatSigned m v = 0x2D#8 :: formatUnsigned (256 - v.toNat) := by
  rw [formatSigned, magnitude_neg m h, if_pos (topBit_set h.le)]

theorem formatBinary_length (v : Byte) : (formatBinary v).length = 8 := by
  simp [formatBinary]

theorem formatBinary_getElem? (v : Byte) {i : Nat} (h : i < 8) :
    (formatBinary v)[i]? = some (if v.getLsbD (7 - i) then 0x31#8 else 0x30#8) := by
  rw [formatBinary, List.getElem?_map, List.getElem?_range h, Option.map_some]

/-- Settles O55: the digits of `%u` by division, `%d` by the sign of the value, with its two open
renderings of 128 computed, and `%b` by its positions. -/
theorem formatterRendersNumbers : Obligations.FormatterRendersNumbers := by
  intro v m
  have hv := v.isLt
  exact ⟨⟨v.toNat / 100, v.toNat / 10 % 10, v.toNat % 10,
      by omega, by omega, by omega, by omega, rfl⟩,
    formatSigned_nonneg m, formatSigned_neg m, by decide, by decide,
    formatBinary_length v, fun _ => formatBinary_getElem? v⟩

/-! #### The scan of a template (R165, R166, R170 to R174) -/

section

variable (m : FmtNeg128) (v : Byte)

/-- The scan ends at the first null, whatever follows it (R165). -/
theorem formatTemplate_null (cs : List Byte) : formatTemplate m v (0x00#8 :: cs) = some [] := by
  cases cs <;> simp [formatTemplate]

/-- A character that is not a `%` and not the terminator is sent as it stands (R166). -/
theorem formatTemplate_plain {c : Byte} (hnull : c ≠ 0x00#8) (hpercent : c ≠ 0x25#8)
    (cs : List Byte) :
    formatTemplate m v (c :: cs) = (formatTemplate m v cs).map (c :: ·) := by
  cases cs <;> simp [formatTemplate, hnull, hpercent]

/-- A `%` that meets the end of the template, of either spelling, is refused (R174). -/
theorem formatTemplate_percent_end : formatTemplate m v [0x25#8] = none := by
  simp [formatTemplate]

theorem formatTemplate_percent_null (cs : List Byte) :
    formatTemplate m v (0x25#8 :: 0x00#8 :: cs) = none := by
  simp [formatTemplate]

/-- A `%` consumes exactly one character, and sends what that directive renders (R166). -/
theorem formatTemplate_directive {d : Byte} (hnull : d ≠ 0x00#8) (cs : List Byte) :
    formatTemplate m v (0x25#8 :: d :: cs) =
      (formatTemplate m v cs).map (formatDirective m v d ++ ·) := by
  simp [formatTemplate, hnull]

/-- A character that is no directive renders as the marker `!` (R172). -/
theorem formatDirective_other {d : Byte} (hd : d ≠ 0x64#8) (hu : d ≠ 0x75#8) (hb : d ≠ 0x62#8)
    (hc : d ≠ 0x63#8) (hpercent : d ≠ 0x25#8) : formatDirective m v d = [0x21#8] := by
  simp [formatDirective, hd, hu, hb, hc, hpercent]

/-- The scan refuses exactly the templates that are not well formed (R174), by the cases of
`templateWf`. -/
theorem formatTemplate_isSome (cs : List Byte) :
    (formatTemplate m v cs).isSome = templateWf cs := by
  induction cs using templateWf.induct with
  | case1 => rfl
  | case2 c =>
    by_cases hnull : c = 0x00#8
    · simp [hnull, formatTemplate_null, templateWf]
    · by_cases hpercent : c = 0x25#8
      · simp [hpercent, formatTemplate_percent_end, templateWf]
      · rw [formatTemplate_plain m v hnull hpercent]
        simp [formatTemplate, templateWf, hpercent]
  | case3 d rest => simp [formatTemplate_null, templateWf]
  | case4 d rest _ ih =>
    by_cases hnull : d = 0x00#8
    · simp [hnull, formatTemplate_percent_null, templateWf]
    · simp [formatTemplate_directive m v hnull, ih, templateWf, hnull]
  | case5 c d rest hnull hpercent ih =>
    simp [formatTemplate_plain m v hnull hpercent, ih, templateWf, hnull, hpercent]

end

/-- Settles O56, from one law per step of the scan; each directive's rendering is computed. -/
theorem templateScanFollowsTheDirectives : Obligations.TemplateScanFollowsTheDirectives := by
  intro m v
  refine ⟨rfl, formatTemplate_percent_end m v, fun cs => ?_⟩
  have hdirective {d : Byte} (hnull : d ≠ 0x00#8) := formatTemplate_directive m v hnull cs
  refine ⟨formatTemplate_null m v cs,
    fun c hnull hpercent => formatTemplate_plain m v hnull hpercent cs,
    formatTemplate_percent_null m v cs, hdirective (by decide), hdirective (by decide),
    hdirective (by decide), hdirective (by decide), hdirective (by decide),
    fun d hnull hd hu hb hc hpercent => ?_, formatTemplate_isSome m v cs⟩
  rw [hdirective hnull, formatDirective_other m v hd hu hb hc hpercent]
  rfl

end Sys2Proof.Proofs

/-! ### The tick (45_tick_step)

Every tick has a next state, and what each context reads is all that its next state depends on. -/

namespace Sys2Proof.Proofs

open Sys2Proof.Machine

/-! #### Totality (R192) -/

/-- Settles O13: a step and an instruction each make one tick, and a tick is a function of the state. -/
theorem everyTickHasANextState : Obligations.EveryTickHasANextState := by
  refine ⟨fun s => ⟨s.after, step_eq s⟩, fun i s => ?_⟩
  rcases exec_is_tick i s with ⟨r, hi⟩ | ⟨F, hi⟩
  · exact ⟨_, hi⟩
  · exact ⟨_, hi⟩

/-! #### What each context reads (R193) -/

/-- The receiver reads nothing of the parameters but the bit period. -/
theorem receiverTick_congr {c d : Config} (h : c.bitPeriod = d.bitPeriod) :
    receiverTick c = receiverTick d := by
  obtain ⟨p, _⟩ := c
  obtain ⟨_, _⟩ := d
  obtain rfl := h
  rfl

/-- The transmitter reads nothing of the parameters but the bit period. -/
theorem transmitterTick_congr {c d : Config} (h : c.bitPeriod = d.bitPeriod) :
    transmitterTick c = transmitterTick d := by
  obtain ⟨p, _⟩ := c
  obtain ⟨_, _⟩ := d
  obtain rfl := h
  rfl

/-- The byte is the published one, or the old one: no clear reaches it (10_state R31). -/
theorem mailboxTick_byte (published : Option Byte) (clear : Bool) (box : Mailbox) :
    (mailboxTick published clear box).byte = published.getD box.byte := by
  cases published with
  | some b => rfl
  | none => cases clear <;> rfl

/-- The flag is set by a publication, and otherwise stands unless it is cleared (10_state R39). -/
theorem mailboxTick_ready (published : Option Byte) (clear : Bool) (box : Mailbox) :
    (mailboxTick published clear box).ready = (published.isSome || (!clear && box.ready)) := by
  cases published with
  | some b => rfl
  | none => cases clear <;> rfl

/-- The mailbox after a step without reset, by what the receiver publishes in it and what the open port
clears. -/
theorem after_box_eq_mailboxTick {s : State} (h : s.rstNow = false) :
    s.after.box = mailboxTick (receiverTick s.cfg s.lineNow s.rx).2
      (s.cmdReady && (s.requestNow.getD quietRequest).clear) s.box := by
  rw [after_box h, mailboxTick_eq_boxAfter]

/-- A clear is taken by the port exactly where the port is open and a clear is presented. -/
theorem clear_taken_iff (s : State) :
    (s.cmdReady && (s.requestNow.getD quietRequest).clear) = true ↔
      s.outputs.cmdReady = true ∧ s.ClearPresented := by
  rw [Bool.and_eq_true, requestNow_clear_iff]
  rfl

section
variable {s s' : State} (hr : s.rstNow = false) (hr' : s'.rstNow = false)
  (hperiod : s.cfg.bitPeriod = s'.cfg.bitPeriod)
include hr hr'

/-- Acceptance reads `tx_active`, the stall and whether a command is presented. -/
theorem after_accepted_congr (hactive : s.tx.active = s'.tx.active) (hstall : s.stall = s'.stall)
    (hpresents : s.host.presents.isSome = s'.host.presents.isSome) :
    s.after.accepted = s'.after.accepted := by
  have hready : s.cmdReady = s'.cmdReady := by rw [State.cmdReady, hactive, hstall, State.cmdReady]
  rw [after_accepted hr, after_accepted hr', requestNow_isSome, requestNow_isSome, hready, hpresents]

include hperiod

/-- The transmitter reads its own fields, the stall and the byte of a presented `TX_SEND`, which only an
idle transmitter heeds. -/
theorem after_tx_congr (htx : s.tx = s'.tx) (hstall : s.stall = s'.stall)
    (hsend : s.sendPresented = s'.sendPresented) : s.after.tx = s'.after.tx := by
  rw [after_tx hr, after_tx hr', requestNow_send, requestNow_send, htx, hstall, hsend,
    transmitterTick_congr hperiod]

variable (hrx : s.rx = s'.rx) (hline : s.lineNow = s'.lineNow)
include hrx hline

/-- The receiver reads its own fields and the line. -/
theorem after_rx_congr : s.after.rx = s'.after.rx := by
  rw [after_rx hr, after_rx hr', receiverTick_congr hperiod, hrx, hline]

/-- The byte depends on what the receiver reads, and on nothing of the host. -/
theorem after_byte_congr (hbyte : s.box.byte = s'.box.byte) :
    s.after.box.byte = s'.after.box.byte := by
  rw [after_box_eq_mailboxTick hr, after_box_eq_mailboxTick hr', mailboxTick_byte, mailboxTick_byte,
    receiverTick_congr hperiod, hrx, hline, hbyte]

/-- The flag depends on what the receiver reads, and on a clear the port takes. -/
theorem after_ready_congr (hready : s.box.ready = s'.box.ready)
    (hclear : s.outputs.cmdReady = true ∧ s.ClearPresented ↔
      s'.outputs.cmdReady = true ∧ s'.ClearPresented) :
    s.after.box.ready = s'.after.box.ready := by
  rw [← clear_taken_iff, ← clear_taken_iff, ← Bool.eq_iff_iff] at hclear
  rw [after_box_eq_mailboxTick hr, after_box_eq_mailboxTick hr', mailboxTick_ready, mailboxTick_ready,
    receiverTick_congr hperiod, hrx, hline, hclear, hready]

end

/-- Settles O40: a step of each state, and the congruence of each context in turn. -/
theorem contextsDependOnlyOnWhatTheyOwn : Obligations.ContextsDependOnlyOnWhatTheyOwn :=
  fun s s' hr hr' hperiod => ⟨s.after, s'.after, step_eq s, step_eq s',
    fun hrx hline => ⟨after_rx_congr hr hr' hperiod hrx hline,
      after_byte_congr hr hr' hperiod hrx hline, after_ready_congr hr hr' hperiod hrx hline⟩,
    after_tx_congr hr hr' hperiod, after_accepted_congr hr hr'⟩

end Sys2Proof.Proofs

/-! ### The stall (60_exceptions)

What a stalled tick keeps from the main context, and the one stall of a whole reception: its entry, its
fixed length and its return. -/

namespace Sys2Proof.Proofs

open Sys2Proof.Machine

/-! #### A stalled tick (R207) -/

theorem cmdReady_of_stalled {s : State} (hs : s.Stalled) : s.cmdReady = false := by
  rw [State.cmdReady, (stall_iff s).mpr hs, Bool.not_true, Bool.and_false]

/-- An idle receiver stalls nothing, so only the transmitter can hold the port closed (10_state R52). -/
theorem stall_of_idle_receiver {s : State} (ha : s.rx.active = false) : s.stall = false :=
  not_stalled fun ⟨_, hbusy⟩ => absurd (ha.symm.trans hbusy) (by decide)

/-- Settles O35: a stalled tick is the transmitter's stalled move behind a closed port, which accepts
nothing and so answers 0; the receiver makes its move as in any tick. -/
theorem stallFreezesTheMainContext : Obligations.StallFreezesTheMainContext := by
  constructor
  · intro s hr hpreempts hbusy
    have hs : s.Stalled := ⟨hpreempts, hbusy⟩
    have hclosed : s.cmdReady = false := cmdReady_of_stalled hs
    have hacc : s.after.accepted = false := by rw [after_accepted hr, hclosed, Bool.false_and]
    exact ⟨s.after, step_eq s, (stall_iff s).mpr hs, (after_transmitterMoves hr).stalled hs, hclosed,
      hacc, after_rsp_of_not_accepted hacc, after_receiverMoves hr⟩
  · intro s hpreempts
    exact not_stalled (unstalled_of_not_preempting hpreempts 0)

/-! #### The stall of a reception (R208, R209, R211) -/

section
variable {s : State} (hwf : s.cfg.WF) (hpreempts : s.cfg.rxPreempts = true)
  (ha : s.rx.active = false) (hp : s.Pending) (hno : s.noResetFor (receptionTicks s.cfg + 1))
include hwf hpreempts ha hp hno

/-- With `RX_PREEMPTS` every tick from the one after detection to that of publication is stalled. -/
theorem stalled_until_publication {j : Nat} (h1 : 1 ≤ j) (hj : j ≤ receptionTicks s.cfg) :
    (s.afterN j).Stalled := by
  obtain ⟨hbusy, -⟩ := busy_until_publication hwf ha hp hno h1 hj
  exact ⟨by rw [afterN_cfg, hpreempts], hbusy⟩

/-- The transmitter stands as the detection tick left it, up to the tick after publication. -/
theorem tx_frozen_until_return {j : Nat} (h1 : 1 ≤ j) (hj : j ≤ receptionTicks s.cfg + 1) :
    (s.afterN j).tx = (s.afterN 1).tx := by
  induction j, h1 using Nat.le_induction with
  | base => rfl
  | succ j h1 ih =>
    have hs : (s.afterN j).Stalled :=
      stalled_until_publication hwf hpreempts ha hp hno h1 (by omega)
    rw [afterN_succ', (after_transmitterMoves (afterN_rstNow hno (by omega))).stalled hs,
      ih (by omega)]

end

/-- Settles O45: the detection tick leaves the transmitter that the stall then freezes, and the
publication returns the receiver to idle, which ends the stall. -/
theorem receptionFreezesTheTransmitterForItsLength :
    Obligations.ReceptionFreezesTheTransmitterForItsLength := by
  intro s hwf hpreempts ha hp hno
  refine ⟨s.afterN 1, (reaches_iff _ _ _).mpr rfl, fun j h1 hj => ?_, ?_⟩
  · exact ⟨s.afterN j, (reaches_iff _ _ _).mpr rfl,
      tx_frozen_until_return hwf hpreempts ha hp hno h1 (by omega),
      cmdReady_of_stalled (stalled_until_publication hwf hpreempts ha hp hno h1 hj)⟩
  · obtain ⟨t, ht, -, -, hidle, -⟩ := receptionPublishesTheEightSamples s hwf ha hp hno
    have hstall : t.stall = false := stall_of_idle_receiver hidle
    refine ⟨t, ht, ?_, hstall, fun htx => (cmdReady_iff t).mpr ⟨htx, hstall⟩⟩
    rw [(reaches_iff _ _ _).mp ht]
    exact tx_frozen_until_return hwf hpreempts ha hp hno (by omega) le_rfl

end Sys2Proof.Proofs

/-! ### Reset and hazards (70_reset_and_hazards)

What a reset leaves in the tick it is applied, whatever else is presented; and the preempting block
wired to itself, whose own start bit freezes its transmitter. -/

namespace Sys2Proof.Proofs

open Sys2Proof.Machine

/-! #### Reset over all (R230) -/

/-- A tick with reset accepts nothing, answers 0 and leaves the specified values, whatever is
presented in it. -/
theorem tick_of_reset {s : State} (h : s.rstNow = true) (r : Option Request) :
    AtReset (s.tick r) ∧ (s.tick r).accepted = false ∧ (s.tick r).rsp = 0#9 ∧
      (s.tick r).cfg = s.cfg := by
  rw [tick_reset h]
  exact ⟨resetTick_atReset s, rfl, rfl, rfl⟩

/-- The host's move touches no field of the block. -/
theorem settleHost_atReset {pre t : State} (h : AtReset t) : AtReset (settleHost pre t) :=
  { h with }

/-- Settles O10: an instruction and a step each make one tick, and the port shows the response that the
step records. -/
theorem resetBeatsEverythingElse : Obligations.ResetBeatsEverythingElse := by
  refine fun s h => ⟨fun i => ?_, ?_⟩
  · rcases exec_is_tick i s with ⟨r, hi⟩ | ⟨F, hi⟩
    · exact ⟨_, hi, tick_of_reset h r⟩
    · exact ⟨_, hi, tick_of_reset (s := s.driveWord F) h none⟩
  · obtain ⟨hreset, hacc, hrsp, hcfg⟩ := tick_of_reset h s.requestNow
    exact ⟨s.after, step_eq s, settleHost_atReset hreset, hacc, hrsp, hcfg,
      (after_rsp_eq_responseNow s).symm.trans hrsp⟩

/-! #### A preempting block wired to itself (R246) -/

/-- The transmitter in the start slot of the frame of `b`, with `ticks` un-stalled ticks of the slot
left (R151). -/
def startSlot (b : Byte) (ticks : Nat) : Transmitter :=
  { active := true, timer := ticks, cnt := 9#4, sr := b, c := false, line := false }

/-- On an open port a presented `TX_SEND` begins the start slot (R151). -/
theorem after_tx_of_sendPresented {s : State} {b : Byte} (ho : s.PortOpen)
    (hsend : s.sendPresented = some b) : s.after.tx = startSlot b s.cfg.bitPeriod := by
  obtain ⟨hr, hidle, hs⟩ := ho
  exact (after_moves_of_sendPresented hr).start hs hidle b hsend

/-- Within the start slot an un-stalled tick counts down (R152). -/
theorem after_tx_of_startSlot {s : State} {b : Byte} {ticks : Nat} (hr : s.rstNow = false)
    (hs : ¬ s.Stalled) (htx : s.tx = startSlot b ticks) (hticks : 1 < ticks) :
    s.after.tx = startSlot b (ticks - 1) := by
  have hcount := (after_transmitterMoves hr).count hs (by rw [htx]; rfl) (by rwa [htx])
  rw [hcount, htx]
  rfl

section
variable {s : State} {b : Byte} (hwf : s.cfg.WF) (hpreempts : s.cfg.rxPreempts = true)
  (ha : s.rx.active = false) (hp : s.Pending) (htx : s.tx = startSlot b s.cfg.bitPeriod)
  (hno : s.noResetFor (receptionTicks s.cfg + 1))
include hwf hpreempts ha hp htx hno

/-- A reception detected in the first tick of the start slot freezes the transmitter in the second one,
for its whole length: the detection tick itself is not stalled. -/
theorem startSlot_frozen {j : Nat} (h1 : 1 ≤ j) (hj : j ≤ receptionTicks s.cfg + 1) :
    (s.afterN j).tx = startSlot b (s.cfg.bitPeriod - 1) := by
  have hr : s.rstNow = false := afterN_rstNow (n := 0) hno (Nat.succ_pos _)
  have hs : ¬ s.Stalled := fun ⟨_, hbusy⟩ => absurd (ha.symm.trans hbusy) (by decide)
  rw [tx_frozen_until_return hwf hpreempts ha hp hno h1 hj]
  exact after_tx_of_startSlot hr hs htx hwf.2

/-- Where the line repeats that transmitter, all eight samples are of the frozen start bit. -/
theorem frozen_startSlot_received_as_zero
    (hwire : ∀ j < receptionTicks s.cfg + 1, s.lineAt j = (s.afterN j).tx.line) :
    (s.afterN (receptionTicks s.cfg + 1)).box = { byte := 0x00#8, ready := true } := by
  have hzeros (k : Nat) (hk : k < 8) : s.lineAt (sampleTick s.cfg k) = (0x00#8).getLsbD k := by
    have hle := sampleTick_le s.cfg hk
    have hperiod : 2 ≤ s.cfg.bitPeriod := hwf.2
    have hpos : 1 ≤ sampleTick s.cfg k := by
      unfold sampleTick startDelay
      omega
    rw [hwire _ (by omega), startSlot_frozen hwf hpreempts ha hp htx hno hpos (by omega),
      BitVec.getLsbD_zero]
    rfl
  obtain ⟨hbox, -⟩ := reception_publishes_byte hwf ha hp hno hzeros
  exact hbox

end

/-- A preempting block at rest that sends on its own receive line publishes `0x00` whatever it sends: the
fall of its start bit is detected in the tick after the acceptance, and freezes what the wire repeats. -/
theorem own_startSlot_received_as_zero {s : State} {b : Byte} (hwf : s.cfg.WF)
    (hpreempts : s.cfg.rxPreempts = true) (ho : s.PortOpen) (ha : s.rx.active = false)
    (hlatch : s.rx.edgePending = false) (hhigh : s.tx.line = true)
    (hsend : s.sendPresented = some b) (hno : s.noResetFor (receptionTicks s.cfg + 2))
    (hwire : ∀ j < receptionTicks s.cfg + 2, s.lineAt j = (s.afterN j).tx.line) :
    (s.afterN (receptionTicks s.cfg + 2)).box = { byte := 0x00#8, ready := true } ∧
      (s.afterN (receptionTicks s.cfg + 2)).tx = startSlot b (s.cfg.bitPeriod - 1) := by
  have hload : s.after.tx = startSlot b s.cfg.bitPeriod := after_tx_of_sendPresented ho hsend
  have hlow : s.lineAt 1 = false :=
    (hwire 1 (by omega)).trans (congrArg Transmitter.line hload)
  obtain ⟨hr, -⟩ := ho
  obtain ⟨hidle, hpend⟩ := fall_after_high hr ha hlatch ((hwire 0 (by omega)).trans hhigh) hlow
  have hwire' (j : Nat) (hj : j < receptionTicks s.cfg + 1) :
      s.after.lineAt j = (s.after.afterN j).tx.line :=
    (after_lineAt s j).trans (hwire (j + 1) (by omega))
  have hno' := after_noResetFor hno
  rw [← after_cfg s] at hwf hpreempts hload hwire' hno' ⊢
  exact ⟨frozen_startSlot_received_as_zero hwf hpreempts hidle hpend hload hno' hwire',
    startSlot_frozen hwf hpreempts hidle hpend hload hno' (by omega) le_rfl⟩

/-- Settles O50: fed by itself the block is a sender on its own receive line, in one plain run. -/
theorem selfWiredPreemptingBlockReceivesZero :
    Obligations.SelfWiredPreemptingBlockReceivesZero := by
  intro s b hwf hpreempts ho ha hlatch hhigh hsend hno
  exact ⟨_, loopRun_eq _ s, own_startSlot_received_as_zero (s := selfFed _ s) hwf hpreempts ho ha
    hlatch hhigh hsend hno fun j hj => selfFed_lineAt hj s⟩

end Sys2Proof.Proofs
